-- ==== Sys2Proof/Word.lean ====
section
/-! DEFINITION. The words of the machine: bytes (V, DT, ST, memory cells), 16-bit words (PC, I, stack entries) and
opcodes (00_scope.md R6, R7; 10_state.md R20). -/

namespace Sys2Proof

/-- An 8-bit unsigned value (R7): a register, a timer, a memory cell, an `nn` immediate. -/
abbrev Byte := BitVec 8

/-- A 16-bit unsigned value: `PC`, `I`, `FPC`, a stack entry. -/
abbrev Word := BitVec 16

/-- A 16-bit opcode, bit 15 the top bit of the family nibble (30_encoding.md R91). -/
abbrev Opcode := BitVec 16

/-- The number of one of the sixteen registers V0 to VF (10_state.md R21). -/
abbrev Reg := Fin 16

/-- `zext_16(v)` of R7. -/
def zext16 (b : Byte) : Word := b.zeroExtend 16

end Sys2Proof
end

