-- ==== Sys2Proof/Config.lean ====
section
/-! DEFINITION. What is fixed for the machine and is not state (00_scope.md R5, 10_state.md R45): the sizes the source
fixes, the policies with the settings the spec admits for each, and the one free value. The settings this machine takes
are in Machine/Params.lean, under the same namespace. -/

namespace Sys2Proof.Config

/-- `MEM_SIZE` (R5, R60). -/
abbrev memSize : Nat := 4096

/-- `PROG_BASE`: the program image is loaded from here (R5, R71). -/
abbrev progBase : Nat := 512

/-- `PROG_MAX`: the longest image, 4096 - 512 bytes (R5, R284). -/
abbrev progMax : Nat := 3584

/-- `FB_W` (R5, R38). -/
abbrev fbWidth : Nat := 64

/-- `FB_H` (R5, R38). -/
abbrev fbHeight : Nat := 32

/-- `STACK_DEPTH` (R5, R35; decision D2 of 92_eei_decisions.md). -/
abbrev stackDepth : Nat := 16

/-- `ADDR_POLICY` (R64, D1): an access above 4095 faults, or every address presented to memory is taken mod 4096. -/
inductive AddrPolicy where
  | fault
  | mask12
  deriving DecidableEq, Repr

/-- `STACK_FAULT_POLICY` (R5, R36; D3, D4): a push on a full stack and a pop of an empty one fault. The spec admits no
other setting. -/
inductive StackFaultPolicy where
  | fault
  deriving DecidableEq, Repr

/-- `SHIFT_SOURCE` (R164, D5): which operand 8XY6 and 8XYE shift. -/
inductive ShiftSource where
  | vx
  | vy
  deriving DecidableEq, Repr

/-- `KEY_INDEX_POLICY` (R220, D6): a key index above 15 faults, or only its low four bits count. -/
inductive KeyIndexPolicy where
  | fault
  | mask4
  deriving DecidableEq, Repr

/-- `rand` (R181, R45, D8): the byte the environment supplies to the n-th execution of CXNN. A FREE VALUE: it has no
body, so nothing can be proved of any draw (log 3). -/
opaque rand : Nat → Byte

end Sys2Proof.Config
end

