-- ==== Sys2Proof/Syntax.lean ====
section
/-! DEFINITION. The 34 instructions, one constructor per row of spec/opcode_table.json (30_encoding.md R94). An operand
has the width of its field (R92): x and y are register numbers, nn a byte, nnn 12 bits, n a row count 0 to 15. -/

namespace Sys2Proof

inductive Instr where
  /-- 00E0 `CLS` (R210) -/
  | cls
  /-- 00EE `RET` (R145) -/
  | ret
  /-- 1NNN `JP nnn` (R143) -/
  | jp (nnn : BitVec 12)
  /-- 2NNN `CALL nnn` (R144) -/
  | call (nnn : BitVec 12)
  /-- 3XNN `SE Vx, nn` (R146) -/
  | seImm (x : Reg) (nn : Byte)
  /-- 4XNN `SNE Vx, nn` (R147) -/
  | sneImm (x : Reg) (nn : Byte)
  /-- 5XY0 `SE Vx, Vy` (R148) -/
  | seReg (x y : Reg)
  /-- 6XNN `LD Vx, nn` (R161) -/
  | ldImm (x : Reg) (nn : Byte)
  /-- 7XNN `ADD Vx, nn` (R162) -/
  | addImm (x : Reg) (nn : Byte)
  /-- 8XY0 `LD Vx, Vy` (R165) -/
  | ldReg (x y : Reg)
  /-- 8XY1 `OR Vx, Vy` (R166) -/
  | orReg (x y : Reg)
  /-- 8XY2 `AND Vx, Vy` (R167) -/
  | andReg (x y : Reg)
  /-- 8XY3 `XOR Vx, Vy` (R168) -/
  | xorReg (x y : Reg)
  /-- 8XY4 `ADD Vx, Vy` (R169) -/
  | addReg (x y : Reg)
  /-- 8XY5 `SUB Vx, Vy` (R170) -/
  | subReg (x y : Reg)
  /-- 8XY6 `SHR Vx, Vy` (R172) -/
  | shr (x y : Reg)
  /-- 8XY7 `SUBN Vx, Vy` (R171) -/
  | subn (x y : Reg)
  /-- 8XYE `SHL Vx, Vy` (R173) -/
  | shl (x y : Reg)
  /-- 9XY0 `SNE Vx, Vy` (R149) -/
  | sneReg (x y : Reg)
  /-- ANNN `LD I, nnn` (R191) -/
  | ldI (nnn : BitVec 12)
  /-- BNNN `JP V0, nnn` (R150) -/
  | jpV0 (nnn : BitVec 12)
  /-- CXNN `RND Vx, nn` (R181) -/
  | rnd (x : Reg) (nn : Byte)
  /-- DXYN `DRW Vx, Vy, n` (R212) -/
  | drw (x y : Reg) (n : Fin 16)
  /-- EX9E `SKP Vx` (R221) -/
  | skp (x : Reg)
  /-- EXA1 `SKNP Vx` (R222) -/
  | sknp (x : Reg)
  /-- FX07 `LD Vx, DT` (R227) -/
  | ldFromDt (x : Reg)
  /-- FX0A `LD Vx, K` (R225) -/
  | waitKey (x : Reg)
  /-- FX15 `LD DT, Vx` (R228) -/
  | ldDt (x : Reg)
  /-- FX18 `LD ST, Vx` (R229) -/
  | ldSt (x : Reg)
  /-- FX1E `ADD I, Vx` (R192) -/
  | addI (x : Reg)
  /-- FX29 `LD F, Vx` (R194) -/
  | ldFont (x : Reg)
  /-- FX33 `LD B, Vx` (R196) -/
  | stBcd (x : Reg)
  /-- FX55 `LD [I], Vx` (R198) -/
  | stRegs (x : Reg)
  /-- FX65 `LD Vx, [I]` (R199) -/
  | ldRegs (x : Reg)
  deriving DecidableEq, Repr

end Sys2Proof
end

