-- ==== Sys2Proof/WellFormed.lean ====
section
/-! DEFINITION. Well-formedness checks. An instruction needs none of its own: "Register operands `x` and `y` select among
all 16 registers with no restriction" and every immediate takes every value of its field (30_encoding.md R92), so the
operand types of Instr admit exactly the operands an encoding admits. What can be ill formed is data the machine is given:
the program image (R284) and the font table (R66). -/

namespace Sys2Proof

/-- The length check of `LoadProgram` (R284): at most 3584 bytes. -/
def imageFits (img : List Byte) : Bool := decide (img.length ≤ Config.progMax)

/-- A font table has 16 glyphs of 5 bytes (R66). -/
def fontHasGlyphs (font : List Byte) : Bool := font.length == 80

/-- Glyph rows hold their four pixels in bits 7 to 4, "bits 3 to 0 zero" (R66). -/
def fontLowBitsClear (font : List Byte) : Bool := font.all fun b => b &&& 0x0F#8 == 0#8

end Sys2Proof
end

