-- ==== Sys2Proof/Decode.lean ====
section
/-! DEFINITION. The decoder (40_cycle.md R122), total on any bytes and rejecting by name, the encoder, and the opcode map
of 30_encoding.md R94 as a list of rows, which the laws hold the decoder against. -/

namespace Sys2Proof

/-- The six classes of unknown opcodes (R97). -/
inductive UnknownClass where
  /-- `0nnn` other than 00E0 and 00EE -/
  | family0
  /-- `5xyn` with `n != 0` -/
  | family5
  /-- `8xyn` with `n` in 8, 9, A, B, C, D, F -/
  | family8
  /-- `9xyn` with `n != 0` -/
  | family9
  /-- `Exnn` with `nn` neither 9E nor A1 -/
  | familyE
  /-- `Fxnn` with `nn` none of the nine listed -/
  | familyF
  deriving DecidableEq, Repr

/-- Why bytes are no instruction: fewer than the two bytes of R90, or an unknown opcode of R97. -/
inductive DecodeError where
  | truncated
  | unknown (c : UnknownClass)
  deriving DecidableEq, Repr

/-! Field extraction (R92). -/

def opField (w : Opcode) : BitVec 4 := w.extractLsb' 12 4
def xField (w : Opcode) : Reg := (w.extractLsb' 8 4).toFin
def yField (w : Opcode) : Reg := (w.extractLsb' 4 4).toFin
def nField (w : Opcode) : Fin 16 := (w.extractLsb' 0 4).toFin
def nnField (w : Opcode) : Byte := w.extractLsb' 0 8
def nnnField (w : Opcode) : BitVec 12 := w.extractLsb' 0 12

/-- Family 0 (R122): all sixteen bits are compared (R98). -/
def decodeFamily0 (w : Opcode) : Except UnknownClass Instr :=
  if w = 0x00E0#16 then .ok .cls
  else if w = 0x00EE#16 then .ok .ret
  else .error .family0

/-- Family 8 (R122), numbered as R95 numbers it. -/
def decodeFamily8 (w : Opcode) : Except UnknownClass Instr :=
  match (nField w).val with
  | 0x0 => .ok (.ldReg (xField w) (yField w))
  | 0x1 => .ok (.orReg (xField w) (yField w))
  | 0x2 => .ok (.andReg (xField w) (yField w))
  | 0x3 => .ok (.xorReg (xField w) (yField w))
  | 0x4 => .ok (.addReg (xField w) (yField w))
  | 0x5 => .ok (.subReg (xField w) (yField w))
  | 0x6 => .ok (.shr (xField w) (yField w))
  | 0x7 => .ok (.subn (xField w) (yField w))
  | 0xE => .ok (.shl (xField w) (yField w))
  | _ => .error .family8

/-- Family E (R122). -/
def decodeFamilyE (w : Opcode) : Except UnknownClass Instr :=
  if nnField w = 0x9E#8 then .ok (.skp (xField w))
  else if nnField w = 0xA1#8 then .ok (.sknp (xField w))
  else .error .familyE

/-- Family F (R122). -/
def decodeFamilyF (w : Opcode) : Except UnknownClass Instr :=
  if nnField w = 0x07#8 then .ok (.ldFromDt (xField w))
  else if nnField w = 0x0A#8 then .ok (.waitKey (xField w))
  else if nnField w = 0x15#8 then .ok (.ldDt (xField w))
  else if nnField w = 0x18#8 then .ok (.ldSt (xField w))
  else if nnField w = 0x1E#8 then .ok (.addI (xField w))
  else if nnField w = 0x29#8 then .ok (.ldFont (xField w))
  else if nnField w = 0x33#8 then .ok (.stBcd (xField w))
  else if nnField w = 0x55#8 then .ok (.stRegs (xField w))
  else if nnField w = 0x65#8 then .ok (.ldRegs (xField w))
  else .error .familyF

/-- `Decode(opcode)` (R122): a pure function of the sixteen bits, selected by the family nibble. -/
def decode (w : Opcode) : Except UnknownClass Instr :=
  match (opField w).toNat with
  | 0x0 => decodeFamily0 w
  | 0x1 => .ok (.jp (nnnField w))
  | 0x2 => .ok (.call (nnnField w))
  | 0x3 => .ok (.seImm (xField w) (nnField w))
  | 0x4 => .ok (.sneImm (xField w) (nnField w))
  | 0x5 => if nField w = 0 then .ok (.seReg (xField w) (yField w)) else .error .family5
  | 0x6 => .ok (.ldImm (xField w) (nnField w))
  | 0x7 => .ok (.addImm (xField w) (nnField w))
  | 0x8 => decodeFamily8 w
  | 0x9 => if nField w = 0 then .ok (.sneReg (xField w) (yField w)) else .error .family9
  | 0xA => .ok (.ldI (nnnField w))
  | 0xB => .ok (.jpV0 (nnnField w))
  | 0xC => .ok (.rnd (xField w) (nnField w))
  | 0xD => .ok (.drw (xField w) (yField w) (nField w))
  | 0xE => decodeFamilyE w
  | _ => decodeFamilyF w

/-- The opcode of two bytes in memory order: the byte at the lower address holds bits 15:8 (20_memory.md R67). -/
def opcodeOfBytes (first second : Byte) : Opcode := first ++ second

/-- The decoder on a list of bytes: one instruction of two bytes (R90) and the bytes after it. -/
def decodeBytes : List Byte → Except DecodeError (Instr × List Byte)
  | first :: second :: rest =>
    match decode (opcodeOfBytes first second) with
    | .ok i => .ok (i, rest)
    | .error c => .error (.unknown c)
  | _ => .error .truncated

/-! The encoder: the formats of R93, the family and sub-opcode numbers of R94. -/

def regBits (x : Fin 16) : BitVec 4 := BitVec.ofFin x

/-- Format `NNN` (R93). -/
def formatNNN (op : BitVec 4) (nnn : BitVec 12) : Opcode := op ++ nnn

/-- Format `XNN` (R93); format `X` is the same layout with a sub-opcode in place of `nn`. -/
def formatXNN (op : BitVec 4) (x : Reg) (nn : Byte) : Opcode := op ++ regBits x ++ nn

/-- Format `XYN` (R93); format `XY` is the same layout with a sub-opcode in place of `n`. -/
def formatXYN (op : BitVec 4) (x y : Reg) (n : BitVec 4) : Opcode := op ++ regBits x ++ regBits y ++ n

/-- The word of an instruction (R94). -/
def encode : Instr → Opcode
  | .cls => 0x00E0#16
  | .ret => 0x00EE#16
  | .jp nnn => formatNNN 0x1#4 nnn
  | .call nnn => formatNNN 0x2#4 nnn
  | .seImm x nn => formatXNN 0x3#4 x nn
  | .sneImm x nn => formatXNN 0x4#4 x nn
  | .seReg x y => formatXYN 0x5#4 x y 0x0#4
  | .ldImm x nn => formatXNN 0x6#4 x nn
  | .addImm x nn => formatXNN 0x7#4 x nn
  | .ldReg x y => formatXYN 0x8#4 x y 0x0#4
  | .orReg x y => formatXYN 0x8#4 x y 0x1#4
  | .andReg x y => formatXYN 0x8#4 x y 0x2#4
  | .xorReg x y => formatXYN 0x8#4 x y 0x3#4
  | .addReg x y => formatXYN 0x8#4 x y 0x4#4
  | .subReg x y => formatXYN 0x8#4 x y 0x5#4
  | .shr x y => formatXYN 0x8#4 x y 0x6#4
  | .subn x y => formatXYN 0x8#4 x y 0x7#4
  | .shl x y => formatXYN 0x8#4 x y 0xE#4
  | .sneReg x y => formatXYN 0x9#4 x y 0x0#4
  | .ldI nnn => formatNNN 0xA#4 nnn
  | .jpV0 nnn => formatNNN 0xB#4 nnn
  | .rnd x nn => formatXNN 0xC#4 x nn
  | .drw x y n => formatXYN 0xD#4 x y (regBits n)
  | .skp x => formatXNN 0xE#4 x 0x9E#8
  | .sknp x => formatXNN 0xE#4 x 0xA1#8
  | .ldFromDt x => formatXNN 0xF#4 x 0x07#8
  | .waitKey x => formatXNN 0xF#4 x 0x0A#8
  | .ldDt x => formatXNN 0xF#4 x 0x15#8
  | .ldSt x => formatXNN 0xF#4 x 0x18#8
  | .addI x => formatXNN 0xF#4 x 0x1E#8
  | .ldFont x => formatXNN 0xF#4 x 0x29#8
  | .stBcd x => formatXNN 0xF#4 x 0x33#8
  | .stRegs x => formatXNN 0xF#4 x 0x55#8
  | .ldRegs x => formatXNN 0xF#4 x 0x65#8

/-- The two bytes of an instruction in memory order (R67, R90). -/
def encodeBytes (i : Instr) : List Byte := [(encode i).extractLsb' 8 8, (encode i).extractLsb' 0 8]

/-! The opcode map (R94): mask and match of each row, and the instruction a matching word stands for. -/

structure Row where
  mask : Opcode
  mtch : Opcode
  instr : Opcode → Instr

/-- `opcode & mask == match` (R94). -/
def Row.selects (r : Row) (w : Opcode) : Prop := w &&& r.mask = r.mtch

def rowsFlow : List Row :=
  [⟨0xFFFF#16, 0x00E0#16, fun _ => .cls⟩,
   ⟨0xFFFF#16, 0x00EE#16, fun _ => .ret⟩,
   ⟨0xF000#16, 0x1000#16, fun w => .jp (nnnField w)⟩,
   ⟨0xF000#16, 0x2000#16, fun w => .call (nnnField w)⟩,
   ⟨0xF000#16, 0x3000#16, fun w => .seImm (xField w) (nnField w)⟩,
   ⟨0xF000#16, 0x4000#16, fun w => .sneImm (xField w) (nnField w)⟩,
   ⟨0xF00F#16, 0x5000#16, fun w => .seReg (xField w) (yField w)⟩,
   ⟨0xF000#16, 0x6000#16, fun w => .ldImm (xField w) (nnField w)⟩,
   ⟨0xF000#16, 0x7000#16, fun w => .addImm (xField w) (nnField w)⟩]

def rowsAlu : List Row :=
  [⟨0xF00F#16, 0x8000#16, fun w => .ldReg (xField w) (yField w)⟩,
   ⟨0xF00F#16, 0x8001#16, fun w => .orReg (xField w) (yField w)⟩,
   ⟨0xF00F#16, 0x8002#16, fun w => .andReg (xField w) (yField w)⟩,
   ⟨0xF00F#16, 0x8003#16, fun w => .xorReg (xField w) (yField w)⟩,
   ⟨0xF00F#16, 0x8004#16, fun w => .addReg (xField w) (yField w)⟩,
   ⟨0xF00F#16, 0x8005#16, fun w => .subReg (xField w) (yField w)⟩,
   ⟨0xF00F#16, 0x8006#16, fun w => .shr (xField w) (yField w)⟩,
   ⟨0xF00F#16, 0x8007#16, fun w => .subn (xField w) (yField w)⟩,
   ⟨0xF00F#16, 0x800E#16, fun w => .shl (xField w) (yField w)⟩]

def rowsMiddle : List Row :=
  [⟨0xF00F#16, 0x9000#16, fun w => .sneReg (xField w) (yField w)⟩,
   ⟨0xF000#16, 0xA000#16, fun w => .ldI (nnnField w)⟩,
   ⟨0xF000#16, 0xB000#16, fun w => .jpV0 (nnnField w)⟩,
   ⟨0xF000#16, 0xC000#16, fun w => .rnd (xField w) (nnField w)⟩,
   ⟨0xF000#16, 0xD000#16, fun w => .drw (xField w) (yField w) (nField w)⟩,
   ⟨0xF0FF#16, 0xE09E#16, fun w => .skp (xField w)⟩,
   ⟨0xF0FF#16, 0xE0A1#16, fun w => .sknp (xField w)⟩]

def rowsF : List Row :=
  [⟨0xF0FF#16, 0xF007#16, fun w => .ldFromDt (xField w)⟩,
   ⟨0xF0FF#16, 0xF00A#16, fun w => .waitKey (xField w)⟩,
   ⟨0xF0FF#16, 0xF015#16, fun w => .ldDt (xField w)⟩,
   ⟨0xF0FF#16, 0xF018#16, fun w => .ldSt (xField w)⟩,
   ⟨0xF0FF#16, 0xF01E#16, fun w => .addI (xField w)⟩,
   ⟨0xF0FF#16, 0xF029#16, fun w => .ldFont (xField w)⟩,
   ⟨0xF0FF#16, 0xF033#16, fun w => .stBcd (xField w)⟩,
   ⟨0xF0FF#16, 0xF055#16, fun w => .stRegs (xField w)⟩,
   ⟨0xF0FF#16, 0xF065#16, fun w => .ldRegs (xField w)⟩]

/-- The 34 rows of R94, in its order. -/
def opcodeMap : List Row := rowsFlow ++ rowsAlu ++ rowsMiddle ++ rowsF

/-- The instruction bits of a table row as the opcode they make: the table's numbering is the opcode's own (R6), and an
instruction is one 16-bit word (R90). -/
def opcodeOfTable (nbits w : Nat) : Opcode := BitVec.ofNat 16 (w % 2 ^ nbits)

/-- The instruction the decoder reads from a table row's bits, laid out as memory holds them (high byte first). -/
def decodeTableWord (nbits w : Nat) : Option Instr :=
  let opcode := opcodeOfTable nbits w
  match decodeBytes [opcode.extractLsb' 8 8, opcode.extractLsb' 0 8] with
  | .ok (i, _) => some i
  | .error _ => none

end Sys2Proof
end

