-- ==== Sys2Proof/Machine/Params.lean ====
section
/-! DEFINITION. The settings this machine takes for the parameters of 00_scope.md R5 that the source leaves open and the
spec decides (92_eei_decisions.md, "Parameters at a glance"). -/

namespace Sys2Proof.Config

/-- `ADDR_POLICY = fault` (R64, D1). -/
def addrPolicy : AddrPolicy := .fault

/-- `STACK_FAULT_POLICY = fault`, on overflow and on underflow (R36, D3, D4). -/
def stackFaultPolicy : StackFaultPolicy := .fault

/-- `SHIFT_SOURCE = VX` (R164, D5). -/
def shiftSource : ShiftSource := .vx

/-- `KEY_INDEX_POLICY = fault` (R220, D6). -/
def keyIndexPolicy : KeyIndexPolicy := .fault

/-- `RESET_PC` (R29, D10). -/
def resetPc : Word := 0x200#16

/-- `SPRITE_MSB_LEFT` (R211, D12). -/
def spriteMsbLeft : Bool := true

/-- Glyphs 0 to 7 of `FONT` (R66, D11). -/
def fontLow : List Byte :=
  [0xF0#8, 0x90#8, 0x90#8, 0x90#8, 0xF0#8] ++ [0x20#8, 0x60#8, 0x20#8, 0x20#8, 0x70#8] ++
  [0xF0#8, 0x10#8, 0xF0#8, 0x80#8, 0xF0#8] ++ [0xF0#8, 0x10#8, 0xF0#8, 0x10#8, 0xF0#8] ++
  [0x90#8, 0x90#8, 0xF0#8, 0x10#8, 0x10#8] ++ [0xF0#8, 0x80#8, 0xF0#8, 0x10#8, 0xF0#8] ++
  [0xF0#8, 0x80#8, 0xF0#8, 0x90#8, 0xF0#8] ++ [0xF0#8, 0x10#8, 0x20#8, 0x40#8, 0x40#8]

/-- Glyphs 8 to F of `FONT` (R66, D11). -/
def fontHigh : List Byte :=
  [0xF0#8, 0x90#8, 0xF0#8, 0x90#8, 0xF0#8] ++ [0xF0#8, 0x90#8, 0xF0#8, 0x10#8, 0xF0#8] ++
  [0xF0#8, 0x90#8, 0xF0#8, 0x90#8, 0x90#8] ++ [0xE0#8, 0x90#8, 0xE0#8, 0x90#8, 0xE0#8] ++
  [0xF0#8, 0x80#8, 0x80#8, 0x80#8, 0xF0#8] ++ [0xE0#8, 0x90#8, 0x90#8, 0x90#8, 0xE0#8] ++
  [0xF0#8, 0x80#8, 0xF0#8, 0x80#8, 0xF0#8] ++ [0xF0#8, 0x80#8, 0xF0#8, 0x80#8, 0x80#8]

/-- `FONT[0..79]` (R66, D11). -/
def font : List Byte := fontLow ++ fontHigh

end Sys2Proof.Config
end

