-- ==== Sys2Proof/Machine/State.lean ====
section
/-! DEFINITION. The state of the machine as plain data (10_state.md R20), its reset value (70_reset_and_hazards.md R280)
and the reasons a step could stop. -/

namespace Sys2Proof.Machine

/-- `RS` (R41). -/
inductive RunState where
  /-- no program loaded -/
  | idle
  /-- normal fetch and execute -/
  | running
  /-- the last `Cycle` executed FX0A with no key pressed (R42) -/
  | blocked
  /-- a fault was raised; left only by `Reset` (R242) -/
  | faulted
  deriving DecidableEq, Repr

/-- `FC` (R241). Code 7 is unused. -/
inductive FaultCode where
  | none
  | fetchRange
  | readRange
  | writeRange
  | stackOverflow
  | stackUnderflow
  | keyIndex
  deriving DecidableEq, Repr

/-- The six host events (R250). `Cycle` carries no `rand` here: the draw is `Config.rand` (log 3). -/
inductive HostEvent where
  | reset
  | loadProgram (img : List Byte)
  | cycle
  | tickTimers
  | keyEvent (key : Fin 16) (pressed : Bool)
  | redrawAck
  deriving DecidableEq, Repr

/-- The output pulses: `diag_unknown` with `diag_pc` and `diag_opcode` (R265), and `load_error` (R266). -/
inductive Output where
  | diagUnknown (pc : Word) (opcode : Opcode)
  | loadError
  deriving DecidableEq, Repr

/-- Memory: the cells whose content differs from their reset content, addresses strictly rising (log 10). -/
abbrev Memory := List Host.Cell

/-- The framebuffer: row `y` holds pixel `x` in bit `x` (R38; log 11). -/
abbrev Framebuffer := Vector (BitVec Config.fbWidth) Config.fbHeight

structure State where
  /-- V0 to VF; `V[15]` is the flag register (R21, R22) -/
  v : Vector Byte 16
  /-- program counter (R25) -/
  pc : Word
  /-- index register (R31) -/
  i : Word
  /-- delay timer (R33) -/
  dt : Byte
  /-- sound timer (R33) -/
  st : Byte
  /-- call stack entries (R34) -/
  stack : Vector Word Config.stackDepth
  /-- number of call stack entries in use (R34) -/
  sp : Fin (Config.stackDepth + 1)
  /-- the 4096 bytes (R60) -/
  mem : Memory
  /-- the 64 by 32 pixels (R38) -/
  fb : Framebuffer
  /-- redraw-needed flag (R39) -/
  rd : Bool
  /-- keypad: `K[k]` is true while key `k` is pressed (R40) -/
  k : Vector Bool 16
  /-- run state (R41) -/
  rs : RunState
  /-- fault code (R43) -/
  fc : FaultCode
  /-- fault information (R43) -/
  fi : BitVec 17
  /-- `PC` of the faulting instruction (R43) -/
  fpc : Word
  /-- MODEL'S OWN: how many times CXNN has drawn (log 3) -/
  draws : Nat
  /-- MODEL'S OWN: host events issued and not yet taken, next first (log 1) -/
  inbox : List HostEvent
  /-- MODEL'S OWN: output pulses emitted so far, newest first (log 2) -/
  outbox : List Output
  deriving DecidableEq, Repr

/-- Why the machine would stop with no next state: NO REASON EXISTS. Every fatal condition of the spec is a next state
with `RS = FAULTED` (R242), raised by `raiseFault`; no meaning raises a `Fault`, so the type has no constructor. -/
inductive Fault where
  deriving DecidableEq, Repr

/-- Why a step would refuse. -/
inductive Refusal where
  /-- Raised by `exec`'s arm of an instruction without a meaning (safe); no arm of this model raises it. -/
  | notModelled (mnemonic : String)
  deriving DecidableEq, Repr

/-- What a step or a meaning answers. -/
abbrev Result := Host.Outcome State Fault Refusal

/-- The machine after power-on: `Reset`, with every key released (R280). Memory lists nothing: each cell holds its reset
content. -/
def State.reset : State where
  v := Vector.replicate 16 0#8
  pc := Config.resetPc
  i := 0#16
  dt := 0#8
  st := 0#8
  stack := Vector.replicate Config.stackDepth 0#16
  sp := 0
  mem := []
  fb := Vector.replicate Config.fbHeight 0#Config.fbWidth
  rd := true
  k := Vector.replicate 16 false
  rs := .idle
  fc := .none
  fi := 0#17
  fpc := 0#16
  draws := 0
  inbox := []
  outbox := []

end Sys2Proof.Machine
end

