-- ==== Sys2Proof/Machine/Ops.lean ====
section
/-! DEFINITION. The named operations over memory, registers, the program counter and the call stack, raising a fault,
and the fetch. Every meaning is written over these. -/

namespace Sys2Proof.Machine

/-! Memory (20_memory.md). -/

/-- What an unlisted address reads as: its content after `Reset`, the font at 0 to 79 and zero elsewhere (R65). -/
def Memory.resetByte (a : Nat) : Byte := Config.font.getD a 0#8

/-- `Mem[a]` (R62). The bound is checked by `outOfRange`, before any access. -/
def Memory.read : Memory → Nat → Byte
  | [], a => Memory.resetByte a
  | (b, w) :: m, a => if a = b then w else Memory.read m a

/-- Drops every entry of an address. -/
def Memory.erase : Memory → Nat → Memory
  | [], _ => []
  | (b, w) :: m, a => if a = b then Memory.erase m a else (b, w) :: Memory.erase m a

/-- Puts an entry in its place, or replaces the one there. -/
def Memory.insert : Memory → Nat → Byte → Memory
  | [], a, v => [(a, v)]
  | (b, w) :: m, a, v =>
    if a < b then (a, v) :: (b, w) :: m
    else if a = b then (a, v) :: m
    else (b, w) :: Memory.insert m a v

/-- `Mem[a] <- v` (R63), keeping the canonical form: no entry equals its address's reset content. -/
def Memory.write (m : Memory) (a : Nat) (v : Byte) : Memory :=
  if v = Memory.resetByte a then Memory.erase m a else Memory.insert m a v

/-- The canonical form: addresses strictly rise and exist, and no entry equals its address's reset content. -/
abbrev Memory.wf (m : Memory) : Prop :=
  m.Pairwise (fun p q => p.1 < q.1) ∧ ∀ p ∈ m, p.1 < Config.memSize ∧ p.2 ≠ Memory.resetByte p.1

/-- The cell an address presented to memory reaches: itself, or its value mod 4096 under `mask12` (D1). -/
def cellOf (p : Config.AddrPolicy) (a : Nat) : Nat :=
  match p with
  | .fault => a
  | .mask12 => a % Config.memSize

/-- The lowest address above 4095 among `start`, ..., `start + len - 1`, if there is one (R64, R244); no address is out
of range under `mask12` (D1). -/
def outOfRange (p : Config.AddrPolicy) (start len : Nat) : Option Nat :=
  match p with
  | .fault => ((List.range len).map (start + ·)).find? fun a => decide (4095 < a)
  | .mask12 => none

/-- Reads bytes at ascending addresses (R70). -/
def loadBytes (p : Config.AddrPolicy) (m : Memory) (start len : Nat) : List Byte :=
  (List.range len).map fun j => m.read (cellOf p (start + j))

/-- Writes bytes at ascending addresses (R70). -/
def storeBytes (p : Config.AddrPolicy) : Memory → Nat → List Byte → Memory
  | m, _, [] => m
  | m, a, b :: bs => storeBytes p (m.write (cellOf p a) b) (a + 1) bs

/-! Registers (R21). No register is hardwired. -/

def State.reg (s : State) (x : Reg) : Byte := s.v.get x

def State.setReg (s : State) (x : Reg) (b : Byte) : State := { s with v := s.v.set x.val b x.isLt }

/-- `V[k] <- b` for a list of bytes at ascending register numbers from `k` (R199). -/
def writeRegs (v : Vector Byte 16) : Nat → List Byte → Vector Byte 16
  | _, [] => v
  | k, b :: bs => writeRegs (v.setIfInBounds k b) (k + 1) bs

/-! The program counter and the run state. -/

/-- `pc <- target`, and `RS <- RUNNING` as after every instruction that runs without a fault (R125). -/
def State.goto (s : State) (target : Word) : State := { s with pc := target, rs := .running }

/-- `pc <- (pc0 + 2) mod 65536` (R124). -/
def State.advance (s : State) : State := s.goto (s.pc + 2#16)

/-- `pc <- pc0 + 4` when the condition holds, else `pc0 + 2` (R141). -/
def State.skipIf (s : State) (cond : Bool) : State := s.goto (s.pc + if cond then 4#16 else 2#16)

/-! The call stack (R34). -/

/-- `Stack[SP] <- w; SP <- SP + 1`, or nothing when `SP = STACK_DEPTH` (R144). -/
def State.push? (s : State) (w : Word) : Option State :=
  if h : s.sp.val < Config.stackDepth then
    some { s with stack := s.stack.set s.sp.val w h, sp := ⟨s.sp.val + 1, by omega⟩ }
  else none

/-- The popped entry and the state with `SP` one lower, or nothing when `SP = 0`; the entry stays in the array (R145). -/
def State.pop? (s : State) : Option (Word × State) :=
  if h : 0 < s.sp.val then
    some (s.stack[s.sp.val - 1]'(by omega), { s with sp := ⟨s.sp.val - 1, by omega⟩ })
  else none

/-! Taking a fault. -/

/-- `raise Fault(code, info)` (R242): the whole effect of the abandoned instruction. There is no handler and no return
from a fault (R249): `Reset` alone leaves it. -/
def State.raiseFault (s : State) (code : FaultCode) (info : Nat) : State :=
  { s with fc := code, fi := BitVec.ofNat 17 info, fpc := s.pc, rs := .faulted }

/-- A push on a full stack or a pop of an empty one, under a policy (R36). -/
def State.stackFault (s : State) (p : Config.StackFaultPolicy) (code : FaultCode) (info : Nat) : State :=
  match p with
  | .fault => s.raiseFault code info

/-- Runs an instruction whose accesses have been checked: a fault if one is out of range, else its effect (R242). -/
def State.checked (s : State) (bad : Option Nat) (code : FaultCode) (effect : State) : State :=
  match bad with
  | some a => s.raiseFault code a
  | none => effect

/-! The fetch (R121). -/

/-- The opcode at `PC`, or nothing when `PC + 1 > 4095`. The fetch has no side effect. -/
def fetchAt (p : Config.AddrPolicy) (m : Memory) (pc0 : Nat) : Option Opcode :=
  match outOfRange p pc0 2 with
  | some _ => none
  | none => some (opcodeOfBytes (m.read (cellOf p pc0)) (m.read (cellOf p (pc0 + 1))))

def State.fetch (s : State) : Option Opcode := fetchAt Config.addrPolicy s.mem s.pc.toNat

/-- Stores an opcode's two bytes at an address, the high byte first (R67). -/
def storeOpcode (m : Memory) (a : Nat) (w : Opcode) : Memory :=
  (m.write a (w.extractLsb' 8 8)).write (a + 1) (w.extractLsb' 0 8)

end Sys2Proof.Machine
end

