-- ==== Sys2Proof/Machine/Flags.lean ====
section
/-! DEFINITION. The flag values written to V[15] (10_state.md R30), all of them 0 or 1, computed from the operands before
the instruction (R23). The machine has no zero, sign or overflow flag. -/

namespace Sys2Proof.Machine

/-- A flag as the whole of V[15]: 0x00 or 0x01 (R22). -/
def flagByte (b : Bool) : Byte := if b then 1#8 else 0#8

/-- 8XY4: carry out of the 8-bit add, `a + b > 255` (R169). -/
def carryFlag (a b : Byte) : Byte := flagByte (decide (255 < a.toNat + b.toNat))

/-- 8XY5 and, with the operands exchanged, 8XY7: 1 when `a - b` needs no borrow, `a >= b` (R170, R171). -/
def noBorrowFlag (a b : Byte) : Byte := flagByte (decide (b.toNat ≤ a.toNat))

/-- 8XY6: the bit shifted out on the right, bit 0 (R172). -/
def rightShiftFlag (src : Byte) : Byte := flagByte (src.getLsbD 0)

/-- 8XYE: the bit shifted out on the left, bit 7 (R173). -/
def leftShiftFlag (src : Byte) : Byte := flagByte (src.getLsbD 7)

/-- DXYN: sprite collision (R212). -/
def collisionFlag (coll : Bool) : Byte := flagByte coll

/-- Writes the result, then V[15] last (R23): with `x = 15` the flag overwrites the result. -/
def State.setResultThenFlag (s : State) (x : Reg) (result flag : Byte) : State := (s.setReg x result).setReg 15 flag

end Sys2Proof.Machine
end

