-- ==== Sys2Proof/Machine/Operands.lean ====
section
/-! DEFINITION. The operand forms: the effective address, the shift operand, the key index, the coordinates and bits of
a sprite, and the decimal digits. -/

namespace Sys2Proof.Machine

/-- `EA(k) = I + k`, a natural number with no reduction (R190). -/
def State.ea (s : State) (k : Nat) : Nat := s.i.toNat + k

/-- The lowest out-of-range address among the `len` bytes at `I` (R190, R64). -/
def State.indexOutOfRange (s : State) (len : Nat) : Option Nat := outOfRange Config.addrPolicy (s.ea 0) len

/-- The `len` bytes at `I`. -/
def State.loadIndexed (s : State) (len : Nat) : List Byte := loadBytes Config.addrPolicy s.mem (s.ea 0) len

/-- Memory with bytes stored at `I`. -/
def State.storeIndexed (s : State) (bytes : List Byte) : Memory := storeBytes Config.addrPolicy s.mem (s.ea 0) bytes

/-- The value a shift works on (R164): `a = V[x]` or `b = V[y]`. -/
def shiftOperand (src : Config.ShiftSource) (a b : Byte) : Byte :=
  match src with
  | .vx => a
  | .vy => b

/-- The key a register value names (R220): none above 15 under `fault`, its low four bits under `mask4`. -/
def keyOf (p : Config.KeyIndexPolicy) (b : Byte) : Option (Fin 16) :=
  match p with
  | .fault => if h : b.toNat < 16 then some ⟨b.toNat, h⟩ else none
  | .mask4 => some (b.extractLsb' 0 4).toFin

/-- `K[k]` (R40). -/
def State.key (s : State) (k : Fin 16) : Bool := s.k.get k

/-- The least `k` with `K[k] = 1` (R225). -/
def State.lowestKey (s : State) : Option (Fin 16) := (List.finRange 16).find? s.key

/-- `FB[y][x]` (R38). -/
def State.pixel (s : State) (x : Fin 64) (y : Fin 32) : Bool := (s.fb.get y).getLsbD x.val

/-- The start coordinate `V[x] mod 64` (R212). -/
def startColumn (b : Byte) : Nat := b.toNat % Config.fbWidth

/-- The start coordinate `V[y] mod 32` (R212). -/
def startRow (b : Byte) : Nat := b.toNat % Config.fbHeight

/-- The pixel of a sprite byte at column offset `c`: bit `7 - c` when bit 7 is leftmost (R211). -/
def spriteBit (msbLeft : Bool) (row : Byte) (c : Nat) : Bool := row.getLsbD (if msbLeft then 7 - c else c)

/-- Hundreds, tens and ones of a byte (R196). -/
def decimalDigits (b : Byte) : List Byte :=
  [BitVec.ofNat 8 (b.toNat / 100), BitVec.ofNat 8 (b.toNat / 10 % 10), BitVec.ofNat 8 (b.toNat % 10)]

end Sys2Proof.Machine
end

