-- ==== Sys2Proof/Machine/Alu.lean ====
section
/-! DEFINITION. Load-immediate, ALU, shift and random instructions (42_alu.md). Operands are captured before any write
(R163). -/

namespace Sys2Proof.Machine

/-- `V[x] <- result`, no flag, `PC + 2`. -/
def State.retire (s : State) (x : Reg) (result : Byte) : State := (s.setReg x result).advance

/-- `V[x] <- result`, then `V[15] <- flag`, `PC + 2`. -/
def State.retireFlag (s : State) (x : Reg) (result flag : Byte) : State :=
  (s.setResultThenFlag x result flag).advance

/-- 6XNN (R161). -/
def execLdImm (x : Reg) (nn : Byte) (s : State) : Result := .next (s.retire x nn)

/-- 7XNN (R162): wraps mod 256, no flag. -/
def execAddImm (x : Reg) (nn : Byte) (s : State) : Result :=
  .next (s.retire x (BitVec.ofNat 8 ((s.reg x).toNat + nn.toNat)))

/-- 8XY0 (R165). -/
def execLdReg (x y : Reg) (s : State) : Result := .next (s.retire x (s.reg y))

/-- 8XY1 (R166): V[15] is not reset. -/
def execOrReg (x y : Reg) (s : State) : Result := .next (s.retire x (s.reg x ||| s.reg y))

/-- 8XY2 (R167). -/
def execAndReg (x y : Reg) (s : State) : Result := .next (s.retire x (s.reg x &&& s.reg y))

/-- 8XY3 (R168). -/
def execXorReg (x y : Reg) (s : State) : Result := .next (s.retire x (s.reg x ^^^ s.reg y))

/-- 8XY4 (R169). -/
def execAddReg (x y : Reg) (s : State) : Result :=
  let a := s.reg x
  let b := s.reg y
  .next (s.retireFlag x (BitVec.ofNat 8 (a.toNat + b.toNat)) (carryFlag a b))

/-- 8XY5 (R170). -/
def execSubReg (x y : Reg) (s : State) : Result :=
  let a := s.reg x
  let b := s.reg y
  .next (s.retireFlag x (a - b) (noBorrowFlag a b))

/-- 8XY7 (R171). -/
def execSubn (x y : Reg) (s : State) : Result :=
  let a := s.reg x
  let b := s.reg y
  .next (s.retireFlag x (b - a) (noBorrowFlag b a))

/-- Shift right by one of the operand a setting selects (R172). -/
def State.shiftRight (s : State) (setting : Config.ShiftSource) (x y : Reg) : State :=
  let src := shiftOperand setting (s.reg x) (s.reg y)
  s.retireFlag x (src >>> 1) (rightShiftFlag src)

/-- Shift left by one of the operand a setting selects (R173). -/
def State.shiftLeft (s : State) (setting : Config.ShiftSource) (x y : Reg) : State :=
  let src := shiftOperand setting (s.reg x) (s.reg y)
  s.retireFlag x (src <<< 1) (leftShiftFlag src)

/-- 8XY6 (R172), with this machine's `SHIFT_SOURCE`. -/
def execShr (x y : Reg) (s : State) : Result := .next (s.shiftRight Config.shiftSource x y)

/-- 8XYE (R173), with this machine's `SHIFT_SOURCE`. -/
def execShl (x y : Reg) (s : State) : Result := .next (s.shiftLeft Config.shiftSource x y)

/-- CXNN with a given draw (R181). -/
def State.randomAnd (s : State) (rand : Byte) (x : Reg) (nn : Byte) : State := s.retire x (rand &&& nn)

/-- CXNN (R181): a fresh draw for this execution (log 3). -/
def execRnd (x : Reg) (nn : Byte) (s : State) : Result :=
  .next (State.randomAnd { s with draws := s.draws + 1 } (Config.rand s.draws) x nn)

end Sys2Proof.Machine
end

