-- ==== Sys2Proof/Machine/Control.lean ====
section
/-! DEFINITION. Control transfer (41_control_flow.md) and the no-op of an unknown opcode (40_cycle.md R126). -/

namespace Sys2Proof.Machine

/-- 1NNN (R143). -/
def execJp (nnn : BitVec 12) (s : State) : Result := .next (s.goto (nnn.zeroExtend 16))

/-- BNNN (R150): `nnn + zext_16(V[0])`, not masked to 12 bits. -/
def execJpV0 (nnn : BitVec 12) (s : State) : Result :=
  .next (s.goto (BitVec.ofNat 16 (nnn.toNat + (s.reg 0).toNat)))

/-- 2NNN (R144): pushes `pc0`, the address of the call itself. -/
def execCall (nnn : BitVec 12) (s : State) : Result :=
  match s.push? s.pc with
  | some t => .next (t.goto (nnn.zeroExtend 16))
  | none => .next (s.stackFault Config.stackFaultPolicy .stackOverflow s.sp.val)

/-- 00EE (R145): the popped address plus 2. -/
def execRet (s : State) : Result :=
  match s.pop? with
  | some (w, t) => .next (t.goto (w + 2#16))
  | none => .next (s.stackFault Config.stackFaultPolicy .stackUnderflow 0)

/-- 3XNN (R146). -/
def execSeImm (x : Reg) (nn : Byte) (s : State) : Result := .next (s.skipIf (s.reg x == nn))

/-- 4XNN (R147). -/
def execSneImm (x : Reg) (nn : Byte) (s : State) : Result := .next (s.skipIf (s.reg x != nn))

/-- 5XY0 (R148). -/
def execSeReg (x y : Reg) (s : State) : Result := .next (s.skipIf (s.reg x == s.reg y))

/-- 9XY0 (R149). -/
def execSneReg (x y : Reg) (s : State) : Result := .next (s.skipIf (s.reg x != s.reg y))

/-- An unknown opcode (R126): one diagnostic pulse and `PC + 2`. -/
def execUnknown (opcode : Opcode) (s : State) : Result :=
  .next { s.advance with outbox := .diagUnknown s.pc opcode :: s.outbox }

end Sys2Proof.Machine
end

