-- ==== Sys2Proof/Machine/Display.lean ====
section
/-! DEFINITION. Display instructions (44_display.md). -/

namespace Sys2Proof.Machine

/-- A framebuffer with every pixel 0. -/
def blankFramebuffer : Framebuffer := Vector.replicate Config.fbHeight 0#Config.fbWidth

/-- 00E0 (R210). -/
def execCls (s : State) : Result := .next { s.advance with fb := blankFramebuffer, rd := true }

/-- A framebuffer being drawn on, with the collision seen so far. -/
abbrev Canvas := Framebuffer × Bool

/-- XORs one pixel with 1, noting a collision if it was 1 (R212). -/
def flipPixel (px : Nat) (py : Nat) (cv : Canvas) : Canvas :=
  if h : py < Config.fbHeight then
    (cv.1.set py (cv.1[py] ^^^ BitVec.twoPow Config.fbWidth px), cv.2 || cv.1[py].getLsbD px)
  else cv

/-- Draws one row of a sprite: for each of its eight bits that is 1, flips the pixel at its wrapped column (R212). -/
def drawRow (msbLeft : Bool) (x0 py : Nat) (row : Byte) (cv : Canvas) : Canvas :=
  (List.range 8).foldl
    (fun cv c => if spriteBit msbLeft row c then flipPixel ((x0 + c) % Config.fbWidth) py cv else cv) cv

/-- Draws the rows of a sprite from row offset `r` on, each at its wrapped row (R212). -/
def drawRows (msbLeft : Bool) (x0 y0 : Nat) : Nat → List Byte → Canvas → Canvas
  | _, [], cv => cv
  | r, row :: rows, cv =>
    drawRows msbLeft x0 y0 (r + 1) rows (drawRow msbLeft x0 ((y0 + r) % Config.fbHeight) row cv)

/-- The framebuffer and the collision after drawing the `n` rows at `I` (R212). -/
def State.drawSprite (s : State) (x y : Reg) (n : Nat) : Canvas :=
  drawRows Config.spriteMsbLeft (startColumn (s.reg x)) (startRow (s.reg y)) 0 (s.loadIndexed n) (s.fb, false)

/-- DXYN (R212): coordinates captured first, V[15] written last; `n = 0` reads nothing and cannot fault (D22). -/
def execDrw (x y : Reg) (n : Fin 16) (s : State) : Result :=
  let cv := s.drawSprite x y n.val
  .next (s.checked (s.indexOutOfRange n.val) .readRange
    { (s.setReg 15 (collisionFlag cv.2)).advance with fb := cv.1, rd := true })

end Sys2Proof.Machine
end

