-- ==== Sys2Proof/Machine/Index.lean ====
section
/-! DEFINITION. Index register and memory instructions (43_index_memory.md). Every address is checked before the first
write (R64). -/

namespace Sys2Proof.Machine

/-- ANNN (R191). -/
def execLdI (nnn : BitVec 12) (s : State) : Result := .next { s.advance with i := nnn.zeroExtend 16 }

/-- FX1E (R192): mod 65536, no flag. -/
def execAddI (x : Reg) (s : State) : Result := .next { s.advance with i := s.i + zext16 (s.reg x) }

/-- FX29 (R194): the whole byte is multiplied. -/
def execLdFont (x : Reg) (s : State) : Result :=
  .next { s.advance with i := BitVec.ofNat 16 ((s.reg x).toNat * 5) }

/-- FX33 (R196). -/
def execStBcd (x : Reg) (s : State) : Result :=
  .next (s.checked (s.indexOutOfRange 3) .writeRange
    { s.advance with mem := s.storeIndexed (decimalDigits (s.reg x)) })

/-- `I <- (I + x + 1) mod 65536`, after FX55 and FX65. -/
def State.indexAfterBlock (s : State) (x : Reg) : Word := BitVec.ofNat 16 (s.i.toNat + x.val + 1)

/-- FX55 (R198): `x` is a count, not a register's content. -/
def execStRegs (x : Reg) (s : State) : Result :=
  .next (s.checked (s.indexOutOfRange (x.val + 1)) .writeRange
    { s.advance with mem := s.storeIndexed (s.v.toList.take (x.val + 1)), i := s.indexAfterBlock x })

/-- FX65 (R199). -/
def execLdRegs (x : Reg) (s : State) : Result :=
  .next (s.checked (s.indexOutOfRange (x.val + 1)) .readRange
    { s.advance with v := writeRegs s.v 0 (s.loadIndexed (x.val + 1)), i := s.indexAfterBlock x })

end Sys2Proof.Machine
end

