-- ==== Sys2Proof/Machine/Keypad.lean ====
section
/-! DEFINITION. Keypad and timer instructions (45_keypad_timers.md). -/

namespace Sys2Proof.Machine

/-- Skips when the level of the key that V[x] names is `level`; a key index above 15 faults (R220). -/
def State.skipIfKey (s : State) (x : Reg) (level : Bool) : State :=
  match keyOf Config.keyIndexPolicy (s.reg x) with
  | some key => s.skipIf (s.key key == level)
  | none => s.raiseFault .keyIndex (s.reg x).toNat

/-- EX9E (R221). -/
def execSkp (x : Reg) (s : State) : Result := .next (s.skipIfKey x true)

/-- EXA1 (R222). -/
def execSknp (x : Reg) (s : State) : Result := .next (s.skipIfKey x false)

/-- FX0A (R225): with no key pressed, only `RS` changes. -/
def execWaitKey (x : Reg) (s : State) : Result :=
  match s.lowestKey with
  | some key => .next (s.setReg x (BitVec.ofNat 8 key.val)).advance
  | none => .next { s with rs := .blocked }

/-- FX07 (R227). -/
def execLdFromDt (x : Reg) (s : State) : Result := .next (s.setReg x s.dt).advance

/-- FX15 (R228). -/
def execLdDt (x : Reg) (s : State) : Result := .next { s.advance with dt := s.reg x }

/-- FX18 (R229). -/
def execLdSt (x : Reg) (s : State) : Result := .next { s.advance with st := s.reg x }

end Sys2Proof.Machine
end

