-- ==== Sys2Proof/Machine/Events.lean ====
section
/-! DEFINITION. The host events other than `Cycle` (60_exceptions.md R250; 70_reset_and_hazards.md). None of them faults. -/

namespace Sys2Proof.Machine

/-- `Reset` (R280): every piece of the machine's state takes its reset value; `K` is not changed (R40), and the model's
own fields are not the machine's state (log 4). -/
def State.resetEvent (s : State) : State :=
  { State.reset with k := s.k, draws := s.draws, inbox := s.inbox, outbox := s.outbox }

/-- A refused or rejected load: one `load_error` pulse, no state change (R284, R285). -/
def State.loadError (s : State) : State := { s with outbox := .loadError :: s.outbox }

/-- `LoadProgram(img)` (R284): accepted in IDLE, at most 3584 bytes, all or nothing. -/
def State.loadProgram (s : State) (img : List Byte) : State :=
  if s.rs ≠ .idle then s.loadError
  else if imageFits img = false then s.loadError
  else { s with mem := storeBytes .fault s.mem Config.progBase img, rs := .running }

/-- One tick of a down-counter, floored at zero (R260). -/
def tickDown (b : Byte) : Byte := if b = 0#8 then b else b - 1#8

/-- `TickTimers` (R260), the same in every run state. -/
def State.tickTimers (s : State) : State := { s with dt := tickDown s.dt, st := tickDown s.st }

/-- `KeyEvent(k, pressed)` (R263), the same in every run state. -/
def State.keyEvent (s : State) (key : Fin 16) (pressed : Bool) : State := { s with k := s.k.set key.val pressed key.isLt }

/-- `RedrawAck` (R264), the same in every run state. -/
def State.redrawAck (s : State) : State := { s with rd := false }

end Sys2Proof.Machine
end

