-- ==== Sys2Proof/Machine/Cycle.lean ====
section
/-! DEFINITION. `Cycle` (40_cycle.md R120) and the six host events (60_exceptions.md R250). -/

namespace Sys2Proof.Machine

/-- Fetch, decode and execute (R121 to R126), as in RUNNING and BLOCKED alike (R42). -/
def fetchExecute (s : State) : Result :=
  match s.fetch with
  | none => .next (s.raiseFault .fetchRange s.pc.toNat)
  | some w =>
    match decode w with
    | .ok i => exec i s
    | .error _ => execUnknown w s

/-- `Cycle()` (R120): nothing at all in IDLE and FAULTED (R129). -/
def cycle (s : State) : Result :=
  match s.rs with
  | .idle => .next s
  | .faulted => .next s
  | .running => fetchExecute s
  | .blocked => fetchExecute s

/-- One host event (R250). -/
def applyEvent (e : HostEvent) (s : State) : Result :=
  match e with
  | .reset => .next s.resetEvent
  | .loadProgram img => .next (s.loadProgram img)
  | .cycle => cycle s
  | .tickTimers => .next s.tickTimers
  | .keyEvent key pressed => .next (s.keyEvent key pressed)
  | .redrawAck => .next s.redrawAck

end Sys2Proof.Machine
end

