-- ==== Sys2Proof/Machine/Step.lean ====
section
/-! DEFINITION. The step, which is one host event (00_scope.md R9), and the state from which it runs a given word. -/

namespace Sys2Proof.Machine

/-- One step: the next event the host has issued, and a `Cycle` when none waits (R9, R251; log 1). -/
def step (s : State) : Host.Outcome State Fault Refusal :=
  match s.inbox with
  | [] => cycle s
  | e :: rest => applyEvent e { s with inbox := rest }

/-- The state with an instruction's word stored where `step` fetches next, and whatever else the fetch needs: no other
event waiting, a run state that executes, and a `PC` that can be fetched from (log 5). -/
def State.withFetchWord (s : State) (nbits w : Nat) : State :=
  let pc := if s.pc.toNat ≤ 4094 then s.pc else Config.resetPc
  { s with
    inbox := []
    pc := pc
    rs := if s.rs = .blocked then .blocked else .running
    mem := storeOpcode s.mem pc.toNat (opcodeOfTable nbits w) }

end Sys2Proof.Machine
end

