-- ==== Sys2Proof/Machine/Ports.lean ====
section
/-! DEFINITION. The output ports (60_exceptions.md R262, R264, R266): what the host reads between events. The pulses
`diag_unknown` and `load_error` are the entries a step adds to `outbox`. -/

namespace Sys2Proof.Machine

/-- `run_state` (R41). -/
def RunState.toBits : RunState → BitVec 2
  | .idle => 0#2
  | .running => 1#2
  | .blocked => 2#2
  | .faulted => 3#2

/-- `fault_code` (R241). -/
def FaultCode.toBits : FaultCode → BitVec 3
  | .none => 0#3
  | .fetchRange => 1#3
  | .readRange => 2#3
  | .writeRange => 3#3
  | .stackOverflow => 4#3
  | .stackUnderflow => 5#3
  | .keyIndex => 6#3

/-- Rows as one number, row 0 lowest, 64 bits a row. -/
def flattenRows : List (BitVec 64) → Nat
  | [] => 0
  | row :: rows => row.toNat + 2 ^ 64 * flattenRows rows

structure Ports where
  /-- bit `y * 64 + x` is `FB[y][x]` (R264) -/
  fb : BitVec 2048
  redrawNeeded : Bool
  stValue : Byte
  soundActive : Bool
  runState : BitVec 2
  fault : Bool
  faultCode : BitVec 3
  faultInfo : BitVec 17
  faultPc : Word
  deriving DecidableEq, Repr

def State.ports (s : State) : Ports where
  fb := BitVec.ofNat 2048 (flattenRows s.fb.toList)
  redrawNeeded := s.rd
  stValue := s.st
  soundActive := s.st != 0#8
  runState := s.rs.toBits
  fault := s.rs == .faulted
  faultCode := s.fc.toBits
  faultInfo := s.fi
  faultPc := s.fpc

end Sys2Proof.Machine
end

