-- ==== Sys2Proof/Safety.lean ====
section
/-! DEFINITION. The terms claims are stated in: the parts of the state and frames over them, how an instruction is
encoded, the invariant of the machine, and what a safe state is. -/

namespace Sys2Proof.Machine

/-! ## Frames -/

/-- The parts of the state, down to one register, byte, pixel, stack entry or key. -/
inductive Part where
  | reg (x : Reg)
  | pc
  | i
  | dt
  | st
  | entry (j : Fin Config.stackDepth)
  | sp
  | byte (a : Nat)
  | pixel (x : Fin 64) (y : Fin 32)
  | rd
  | key (k : Fin 16)
  | rs
  | fc
  | fi
  | fpc
  | draws
  | inbox
  | outbox
  deriving DecidableEq, Repr

/-- The two states hold the same in a part. -/
def Part.same (p : Part) (s t : State) : Prop :=
  match p with
  | .reg x => t.reg x = s.reg x
  | .pc => t.pc = s.pc
  | .i => t.i = s.i
  | .dt => t.dt = s.dt
  | .st => t.st = s.st
  | .entry j => t.stack.get j = s.stack.get j
  | .sp => t.sp = s.sp
  | .byte a => t.mem.read a = s.mem.read a
  | .pixel x y => t.pixel x y = s.pixel x y
  | .rd => t.rd = s.rd
  | .key k => t.key k = s.key k
  | .rs => t.rs = s.rs
  | .fc => t.fc = s.fc
  | .fi => t.fi = s.fi
  | .fpc => t.fpc = s.fpc
  | .draws => t.draws = s.draws
  | .inbox => t.inbox = s.inbox
  | .outbox => t.outbox = s.outbox

/-- Every part is unchanged except those that may change. -/
def Frame (may : Part → Prop) (s t : State) : Prop := ∀ p, ¬ may p → p.same s t

/-- Every part is unchanged except those listed. -/
def OnlyChanges (parts : List Part) (s t : State) : Prop := Frame (· ∈ parts) s t

/-- The whole effect of a fault (R242): the fault status, the run state, and nothing else. -/
def Faults (code : FaultCode) (info : Nat) (s t : State) : Prop :=
  t.fc = code ∧ t.fi.toNat = info ∧ t.fpc = s.pc ∧ t.rs = .faulted ∧ OnlyChanges [.fc, .fi, .fpc, .rs] s t

/-! ## What an instruction does -/

/-- `exec` answers a next state with `PC` at the target, RUNNING (R125), nothing changed but `PC`, `RS` and the listed
parts, and the postcondition. -/
def CompletesAt (i : Instr) (s : State) (target : Word) (parts : List Part) (post : State → Prop) : Prop :=
  ∃ t, exec i s = .next t ∧ t.pc = target ∧ t.rs = .running ∧ OnlyChanges (.pc :: .rs :: parts) s t ∧ post t

/-- The same with `pc <- (pc0 + 2) mod 65536` (R124). -/
def Completes (i : Instr) (s : State) (parts : List Part) (post : State → Prop) : Prop :=
  CompletesAt i s (s.pc + 2#16) parts post

/-- `exec` answers a next state that is the whole effect of a fault (R242). -/
def TakesFault (i : Instr) (s : State) (code : FaultCode) (info : Nat) : Prop :=
  ∃ t, exec i s = .next t ∧ Faults code info s t

/-- The machine fetches and executes: RUNNING or BLOCKED (R120). -/
def State.Executing (s : State) : Prop := s.rs = .running ∨ s.rs = .blocked

/-- Some row `r` and column `c` of the sprite at `I` has its bit set and falls on the pixel (R212). -/
def SpriteSets (s : State) (x y : Reg) (n : Nat) (px : Fin 64) (py : Fin 32) : Prop :=
  ∃ r c, r < n ∧ c < 8 ∧ (s.mem.read (s.ea r)).getLsbD (7 - c) = true ∧
    px.val = ((s.reg x).toNat % 64 + c) % 64 ∧ py.val = ((s.reg y).toNat % 32 + r) % 32

/-! ## Encoding -/

/-- The words that decode to the instruction `f` reads from them are those with `opcode & mask == match` (R94). -/
def EncodedBy (mask mtch : Opcode) (f : Opcode → Instr) : Prop :=
  ∀ w, decode w = .ok (f w) ↔ w &&& mask = mtch

/-! ## The invariant -/

/-- What holds in every state the host can bring the machine to. -/
structure State.Inv (s : State) : Prop where
  /-- memory is in its canonical form -/
  mem_wf : s.mem.wf
  /-- "`PC` never exceeds 0x10FE" (R28) -/
  pc_le : s.pc.toNat ≤ 0x10FE
  /-- "a stack entry is a `pc0` of a successful 2NNN, so at most 4094" (R28) -/
  entry_le : ∀ j, (s.stack.get j).toNat ≤ 4094
  /-- FAULTED exactly when a fault code is recorded (R241, R242) -/
  faulted_iff : s.rs = .faulted ↔ s.fc ≠ .none
  /-- without a fault the other two fault registers are 0 (R43) -/
  no_fault : s.fc = .none → s.fi = 0 ∧ s.fpc = 0
  /-- a fault leaves `PC` at the faulting instruction for good (R242) -/
  fault_pc : s.fc ≠ .none → s.fpc = s.pc
  /-- BLOCKED only on an FX0A at `PC` (R42, R131) -/
  blocked_on_key : s.rs = .blocked → ∃ w x, s.fetch = some w ∧ decode w = .ok (.waitKey x)
  /-- IDLE only with the reset contents (R281; R260: "in `IDLE` both timers are already 0") -/
  idle_is_reset : s.rs = .idle → s.v = State.reset.v ∧ s.pc = State.reset.pc ∧ s.i = State.reset.i ∧ s.dt = 0#8 ∧
    s.st = 0#8 ∧ s.stack = State.reset.stack ∧ s.sp = 0 ∧ s.mem = [] ∧ s.fb = State.reset.fb

/-! ## Safe states -/

/-- "a faulted state is never a final (successful) state of a program" (R242). -/
def State.Safe (s : State) : Prop := s.rs ≠ .faulted

end Sys2Proof.Machine
end

