-- ==== Sys2Proof/Certificates/Slice0/Obligations.lean ====
section
/-! DEFINITION. The statements for the provers, each naming in its docstring the rule of the spec it formalises. `Completes`,
`CompletesAt`, `TakesFault`, `Faults`, `OnlyChanges`, `EncodedBy` and `State.Inv` are defined in Safety.lean. -/

open Sys2Proof Sys2Proof.Machine

/-! ## Encoding and decoding -/

/-- R90, R92, R93: one word per instruction and one instruction per word: no bit of an encoding is dropped. The bytes of an
instruction decode to it whatever follows them. -/
def Obligations.DecodeInvertsEncode : Prop :=
  (∀ i w, decode w = .ok i ↔ w = encode i) ∧
  ∀ i rest, decodeBytes (encodeBytes i ++ rest) = .ok (i, rest)

/-- R94, R122: each row of the opcode map selects exactly the words that decode to its instruction, every decoded word has
its row, and the 34 rows are disjoint. -/
def Obligations.DecoderFollowsOpcodeMap : Prop :=
  opcodeMap.length = 34 ∧
  (∀ r ∈ opcodeMap, ∀ w, r.selects w ↔ decode w = .ok (r.instr w)) ∧
  (∀ w i, decode w = .ok i → ∃ r ∈ opcodeMap, r.selects w ∧ r.instr w = i) ∧
  opcodeMap.Pairwise fun r q => ∀ w, ¬ (r.selects w ∧ q.selects w)

/-- The fields that put a word in a class of unknown opcodes (R97). -/
def unknownFields (c : UnknownClass) (w : Opcode) : Prop :=
  match c with
  | .family0 => opField w = 0x0#4 ∧ nnnField w ≠ 0x0E0#12 ∧ nnnField w ≠ 0x0EE#12
  | .family5 => opField w = 0x5#4 ∧ nField w ≠ 0
  | .family8 => opField w = 0x8#4 ∧ (nField w).val ∈ [0x8, 0x9, 0xA, 0xB, 0xC, 0xD, 0xF]
  | .family9 => opField w = 0x9#4 ∧ nField w ≠ 0
  | .familyE => opField w = 0xE#4 ∧ nnField w ≠ 0x9E#8 ∧ nnField w ≠ 0xA1#8
  | .familyF => opField w = 0xF#4 ∧
      nnField w ∉ [0x07#8, 0x0A#8, 0x15#8, 0x18#8, 0x1E#8, 0x29#8, 0x33#8, 0x55#8, 0x65#8]

/-- R97: the decoder rejects a word under a class exactly when its fields are those of the class. -/
def Obligations.RejectedWordsAreTheUnknownClasses : Prop := ∀ w c, decode w = .error c ↔ unknownFields c w

/-- Words written out bit by bit from the encodings of R94, one for each format and family. -/
def Obligations.SampleWordsDecode : Prop :=
  decode 0b0000000011100000#16 = .ok .cls ∧
  decode 0b0001001000110100#16 = .ok (.jp 0x234#12) ∧
  decode 0b0011001100101010#16 = .ok (.seImm 3 0x2A#8) ∧
  decode 0b1000001000111110#16 = .ok (.shl 2 3) ∧
  decode 0b1101000000010101#16 = .ok (.drw 0 1 5) ∧
  decode 0b1110001010011110#16 = .ok (.skp 2) ∧
  decode 0b1111000101010101#16 = .ok (.stRegs 1) ∧
  decode 0b0101000000010001#16 = .error .family5

/-! ## The step -/

/-- R120: where the machine executes and the bytes at `PC` decode to `i`, the step is `exec i`: with no event waiting, and
with a `Cycle` waiting, which the step takes from the inbox. (That an empty inbox means a `Cycle` is the model's choice, log
1.) -/
def Obligations.StepRunsDecodedInstruction : Prop :=
  ∀ s i rest, s.Executing → s.pc.toNat ≤ 4094 →
    decode (opcodeOfBytes (s.mem.read s.pc.toNat) (s.mem.read (s.pc.toNat + 1))) = .ok i →
    (s.inbox = [] → step s = exec i s) ∧ (s.inbox = .cycle :: rest → step s = exec i { s with inbox := rest })

/-- R9, R250: a step is the next event the host has issued. (The inbox is the model's own, log 1.) -/
def Obligations.StepTakesNextEvent : Prop :=
  (∀ s e rest, s.inbox = e :: rest → step s = applyEvent e { s with inbox := rest }) ∧
  ∀ s, s.inbox = [] → step s = applyEvent .cycle s

/-- R121: the fetch is big-endian, checks both bytes, and faults with the `PC` it could not fetch from. -/
def Obligations.FetchIsBigEndianAndBounded : Prop :=
  (∀ s : State, s.pc.toNat ≤ 4094 → ∃ w, s.fetch = some w ∧
    w.toNat = (s.mem.read s.pc.toNat).toNat * 256 + (s.mem.read (s.pc.toNat + 1)).toNat) ∧
  ∀ s : State, s.Executing → 4094 < s.pc.toNat → ∃ t, cycle s = .next t ∧ Faults .fetchRange s.pc.toNat s t

/-- R129. -/
def Obligations.CycleInIdleOrFaultedChangesNothing : Prop :=
  ∀ s : State, s.rs = .idle ∨ s.rs = .faulted → cycle s = .next s

/-- R126: an unknown opcode changes `PC` and `RS` only, and emits one diagnostic pulse with `pc0` and the opcode. (Where the
pulse is recorded is the model's choice, log 2.) -/
def Obligations.UnknownOpcodeIsNoOp : Prop :=
  ∀ (s : State) w c, s.Executing → s.fetch = some w → decode w = .error c →
    ∃ t, cycle s = .next t ∧ t.pc = s.pc + 2#16 ∧ t.rs = .running ∧ t.outbox = .diagUnknown s.pc w :: s.outbox ∧
      OnlyChanges [.pc, .rs, .outbox] s t

/-- R125: after a `Cycle` that does not fault, BLOCKED when it executed FX0A with no key pressed, else RUNNING. -/
def Obligations.RunStateAfterCycle : Prop :=
  ∀ s t : State, s.Executing → cycle s = .next t → t.rs ≠ .faulted →
    (t.rs = .blocked ∨ t.rs = .running) ∧
    (t.rs = .blocked ↔ (∃ w x, s.fetch = some w ∧ decode w = .ok (.waitKey x)) ∧ ∀ k, s.key k = false)

/-- The new `PC` of an instruction that does not fault (R26). -/
def newPc (i : Instr) (s t : State) : Prop :=
  let plus (n : Nat) : Nat := (s.pc.toNat + n) % 65536
  match i with
  | .jp nnn => t.pc.toNat = nnn.toNat
  | .call nnn => t.pc.toNat = nnn.toNat
  | .jpV0 nnn => t.pc.toNat = (nnn.toNat + (s.reg 0).toNat) % 65536
  | .ret => ∀ j : Fin 16, j.val + 1 = s.sp.val → t.pc.toNat = ((s.stack.get j).toNat + 2) % 65536
  | .seImm x nn => t.pc.toNat = if s.reg x = nn then plus 4 else plus 2
  | .sneImm x nn => t.pc.toNat = if s.reg x ≠ nn then plus 4 else plus 2
  | .seReg x y => t.pc.toNat = if s.reg x = s.reg y then plus 4 else plus 2
  | .sneReg x y => t.pc.toNat = if s.reg x ≠ s.reg y then plus 4 else plus 2
  | .skp x => ∀ k : Fin 16, k.val = (s.reg x).toNat → t.pc.toNat = if s.key k = true then plus 4 else plus 2
  | .sknp x => ∀ k : Fin 16, k.val = (s.reg x).toNat → t.pc.toNat = if s.key k = false then plus 4 else plus 2
  | .waitKey _ => ((∃ k, s.key k = true) → t.pc.toNat = plus 2) ∧ ((∀ k, s.key k = false) → t.pc = s.pc)
  | _ => t.pc.toNat = plus 2

/-- R26: how each instruction leaves `PC`; one that faults leaves it unchanged. -/
def Obligations.ProgramCounterAfterInstruction : Prop :=
  (∀ i s t, exec i s = .next t → (t.rs = .faulted → t.pc = s.pc) ∧ (t.rs ≠ .faulted → newPc i s t)) ∧
  ∀ w s t, execUnknown w s = .next t → t.pc.toNat = (s.pc.toNat + 2) % 65536

/-! ## Load-immediate, ALU, shift and random instructions -/

/-- R161. -/
def Obligations.LoadImmediate : Prop :=
  EncodedBy 0xF000#16 0x6000#16 (fun w => .ldImm (xField w) (nnField w)) ∧
  ∀ x nn s, Completes (.ldImm x nn) s [.reg x] fun t => t.reg x = nn

/-- R162: the sum wraps modulo 256, and V[15] is unchanged unless `x = 15`. -/
def Obligations.AddImmediateWrapsWithoutFlag : Prop :=
  EncodedBy 0xF000#16 0x7000#16 (fun w => .addImm (xField w) (nnField w)) ∧
  ∀ x nn s, Completes (.addImm x nn) s [.reg x] fun t => (t.reg x).toNat = ((s.reg x).toNat + nn.toNat) % 256

/-- R165. -/
def Obligations.CopyRegister : Prop :=
  EncodedBy 0xF00F#16 0x8000#16 (fun w => .ldReg (xField w) (yField w)) ∧
  ∀ x y s, Completes (.ldReg x y) s [.reg x] fun t => t.reg x = s.reg y

/-- R166, R167, R168: bit by bit; V[15] is unchanged unless `x = 15`. -/
def Obligations.LogicOperationsLeaveFlag : Prop :=
  (EncodedBy 0xF00F#16 0x8001#16 (fun w => .orReg (xField w) (yField w)) ∧
    EncodedBy 0xF00F#16 0x8002#16 (fun w => .andReg (xField w) (yField w)) ∧
    EncodedBy 0xF00F#16 0x8003#16 (fun w => .xorReg (xField w) (yField w))) ∧
  (∀ x y s, Completes (.orReg x y) s [.reg x] fun t =>
    ∀ j, (t.reg x).getLsbD j = ((s.reg x).getLsbD j || (s.reg y).getLsbD j)) ∧
  (∀ x y s, Completes (.andReg x y) s [.reg x] fun t =>
    ∀ j, (t.reg x).getLsbD j = ((s.reg x).getLsbD j && (s.reg y).getLsbD j)) ∧
  ∀ x y s, Completes (.xorReg x y) s [.reg x] fun t =>
    ∀ j, (t.reg x).getLsbD j = ((s.reg x).getLsbD j != (s.reg y).getLsbD j)

/-- R169: V[15] ends as the carry of the operands before the instruction, also when `x = 15`. -/
def Obligations.AddSetsCarry : Prop :=
  EncodedBy 0xF00F#16 0x8004#16 (fun w => .addReg (xField w) (yField w)) ∧
  ∀ x y s, Completes (.addReg x y) s [.reg x, .reg 15] fun t =>
    (x ≠ 15 → (t.reg x).toNat = ((s.reg x).toNat + (s.reg y).toNat) % 256) ∧
    t.reg 15 = if 255 < (s.reg x).toNat + (s.reg y).toNat then 1#8 else 0#8

/-- R170: V[15] ends as NOT borrow, 1 when `V[x] >= V[y]`. -/
def Obligations.SubtractSetsNotBorrow : Prop :=
  EncodedBy 0xF00F#16 0x8005#16 (fun w => .subReg (xField w) (yField w)) ∧
  ∀ x y s, Completes (.subReg x y) s [.reg x, .reg 15] fun t =>
    (x ≠ 15 → (t.reg x).toNat =
      if (s.reg y).toNat ≤ (s.reg x).toNat then (s.reg x).toNat - (s.reg y).toNat
      else (s.reg x).toNat + 256 - (s.reg y).toNat) ∧
    t.reg 15 = if (s.reg y).toNat ≤ (s.reg x).toNat then 1#8 else 0#8

/-- R171: the operands of R170 exchanged. -/
def Obligations.ReverseSubtractSetsNotBorrow : Prop :=
  EncodedBy 0xF00F#16 0x8007#16 (fun w => .subn (xField w) (yField w)) ∧
  ∀ x y s, Completes (.subn x y) s [.reg x, .reg 15] fun t =>
    (x ≠ 15 → (t.reg x).toNat =
      if (s.reg x).toNat ≤ (s.reg y).toNat then (s.reg y).toNat - (s.reg x).toNat
      else (s.reg y).toNat + 256 - (s.reg x).toNat) ∧
    t.reg 15 = if (s.reg x).toNat ≤ (s.reg y).toNat then 1#8 else 0#8

/-- R172, R164: with this machine's `SHIFT_SOURCE = VX`, and the operand and flag under `SHIFT_SOURCE = VY`. -/
def Obligations.ShiftRightByOne : Prop :=
  EncodedBy 0xF00F#16 0x8006#16 (fun w => .shr (xField w) (yField w)) ∧
  (∀ x y s, Completes (.shr x y) s [.reg x, .reg 15] fun t =>
    (x ≠ 15 → (t.reg x).toNat = (s.reg x).toNat / 2) ∧
    t.reg 15 = if (s.reg x).toNat % 2 = 1 then 1#8 else 0#8) ∧
  ∀ x y (s : State), (x ≠ 15 → ((s.shiftRight .vy x y).reg x).toNat = (s.reg y).toNat / 2) ∧
    (s.shiftRight .vy x y).reg 15 = if (s.reg y).toNat % 2 = 1 then 1#8 else 0#8

/-- R173, R164: with this machine's `SHIFT_SOURCE = VX`, and the operand and flag under `SHIFT_SOURCE = VY`. -/
def Obligations.ShiftLeftByOne : Prop :=
  EncodedBy 0xF00F#16 0x800E#16 (fun w => .shl (xField w) (yField w)) ∧
  (∀ x y s, Completes (.shl x y) s [.reg x, .reg 15] fun t =>
    (x ≠ 15 → (t.reg x).toNat = (s.reg x).toNat * 2 % 256) ∧
    t.reg 15 = if 128 ≤ (s.reg x).toNat then 1#8 else 0#8) ∧
  ∀ x y (s : State), (x ≠ 15 → ((s.shiftLeft .vy x y).reg x).toNat = (s.reg y).toNat * 2 % 256) ∧
    (s.shiftLeft .vy x y).reg 15 = if 128 ≤ (s.reg y).toNat then 1#8 else 0#8

/-- R164: with `y = x`, "both settings agree" on the whole next state. -/
def Obligations.ShiftSourceSetting : Prop :=
  ∀ p x (s : State), exec (.shr x x) s = .next (s.shiftRight p x x) ∧ exec (.shl x x) s = .next (s.shiftLeft p x x)

/-- R181: whatever the draw, the result is the draw AND `nn`; the instruction draws afresh. (That draws are numbered by
a counter is the model's choice, log 3.) -/
def Obligations.RandomByteIsMasked : Prop :=
  EncodedBy 0xF000#16 0xC000#16 (fun w => .rnd (xField w) (nnField w)) ∧
  (∀ r x nn (s : State), (s.randomAnd r x nn).reg x = r &&& nn) ∧
  ∀ x nn s, Completes (.rnd x nn) s [.reg x, .draws] fun t =>
    t.reg x = Config.rand s.draws &&& nn ∧ t.draws = s.draws + 1 ∧
    ∀ j, nn.getLsbD j = false → (t.reg x).getLsbD j = false

/-- The instructions that write V[15] as a flag (R30). -/
def writesFlag : Instr → Bool
  | .addReg _ _ | .subReg _ _ | .subn _ _ | .shr _ _ | .shl _ _ | .drw _ _ _ => true
  | _ => false

/-- The register an instruction names as its destination is V[15], or its block of registers ends with it (R22). -/
def destinationIsFlag : Instr → Bool
  | .ldImm x _ | .addImm x _ | .ldReg x _ | .orReg x _ | .andReg x _ | .xorReg x _ | .rnd x _ | .ldFromDt x
  | .waitKey x | .ldRegs x => x == 15
  | _ => false

/-- R22, R30: a flag-producing instruction that does not fault leaves V[15] at 0 or 1, and no other instruction writes
V[15] unless it is its destination. -/
def Obligations.OnlyFlagInstructionsWriteFlag : Prop :=
  ∀ i s t, exec i s = .next t →
    (writesFlag i = true → t.rs ≠ .faulted → t.reg 15 = 0#8 ∨ t.reg 15 = 1#8) ∧
    (writesFlag i = false → destinationIsFlag i = false → t.reg 15 = s.reg 15)

/-! ## Control transfer -/

/-- R143; a target that cannot be fetched from is no error of the jump: the next fetch faults. -/
def Obligations.JumpGoesToTarget : Prop :=
  EncodedBy 0xF000#16 0x1000#16 (fun w => .jp (nnnField w)) ∧
  ∀ nnn s, CompletesAt (.jp nnn) s (nnn.zeroExtend 16) [] fun t =>
    nnn = 0xFFF#12 → ∃ u, cycle t = .next u ∧ Faults .fetchRange 0xFFF t u

/-- R150: the sum is not masked to 12 bits; a sum above 4094 makes the next fetch fault. -/
def Obligations.JumpPlusV0 : Prop :=
  EncodedBy 0xF000#16 0xB000#16 (fun w => .jpV0 (nnnField w)) ∧
  ∀ nnn s, CompletesAt (.jpV0 nnn) s (nnn.zeroExtend 16 + (s.reg 0).zeroExtend 16) [] fun t =>
    t.pc.toNat = nnn.toNat + (s.reg 0).toNat ∧
    (4094 < t.pc.toNat → ∃ u, cycle t = .next u ∧ Faults .fetchRange t.pc.toNat t u)

/-- R144: the value pushed is the address of the call itself; a full stack faults and pushes nothing. -/
def Obligations.CallPushesItsOwnAddress : Prop :=
  EncodedBy 0xF000#16 0x2000#16 (fun w => .call (nnnField w)) ∧
  (∀ nnn s, ∀ j : Fin 16, j.val = s.sp.val →
    CompletesAt (.call nnn) s (nnn.zeroExtend 16) [.entry j, .sp] fun t =>
      t.stack.get j = s.pc ∧ t.sp.val = s.sp.val + 1) ∧
  ∀ nnn s, s.sp.val = 16 → TakesFault (.call nnn) s .stackOverflow 16

/-- R145: the popped address plus 2, the entry staying in the array; an empty stack faults. -/
def Obligations.ReturnPopsAndAdvances : Prop :=
  EncodedBy 0xFFFF#16 0x00EE#16 (fun _ => .ret) ∧
  (∀ s, ∀ j : Fin 16, j.val + 1 = s.sp.val →
    CompletesAt .ret s (s.stack.get j + 2#16) [.sp] fun t => t.sp.val = j.val) ∧
  ∀ s, s.sp.val = 0 → TakesFault .ret s .stackUnderflow 0

/-- R144, R145: `2NNN` then `00EE`, whatever ran in between that left the stack alone, returns to the instruction after
the call. -/
def Obligations.CallThenReturnRoundTrip : Prop :=
  ∀ nnn s t, s.sp.val < 16 → exec (.call nnn) s = .next t →
    ∀ u, u.stack = t.stack → u.sp = t.sp →
      CompletesAt .ret u (s.pc + 2#16) [.sp] fun w => w.sp = s.sp

/-- R146, R147. -/
def Obligations.SkipOnImmediate : Prop :=
  (EncodedBy 0xF000#16 0x3000#16 (fun w => .seImm (xField w) (nnField w)) ∧
    EncodedBy 0xF000#16 0x4000#16 (fun w => .sneImm (xField w) (nnField w))) ∧
  ∀ x nn s,
    (s.reg x = nn → CompletesAt (.seImm x nn) s (s.pc + 4#16) [] (fun _ => True) ∧
      CompletesAt (.sneImm x nn) s (s.pc + 2#16) [] fun _ => True) ∧
    (s.reg x ≠ nn → CompletesAt (.seImm x nn) s (s.pc + 2#16) [] (fun _ => True) ∧
      CompletesAt (.sneImm x nn) s (s.pc + 4#16) [] fun _ => True)

/-- R148, R149. -/
def Obligations.SkipOnRegisters : Prop :=
  (EncodedBy 0xF00F#16 0x5000#16 (fun w => .seReg (xField w) (yField w)) ∧
    EncodedBy 0xF00F#16 0x9000#16 (fun w => .sneReg (xField w) (yField w))) ∧
  ∀ x y s,
    (s.reg x = s.reg y → CompletesAt (.seReg x y) s (s.pc + 4#16) [] (fun _ => True) ∧
      CompletesAt (.sneReg x y) s (s.pc + 2#16) [] fun _ => True) ∧
    (s.reg x ≠ s.reg y → CompletesAt (.seReg x y) s (s.pc + 2#16) [] (fun _ => True) ∧
      CompletesAt (.sneReg x y) s (s.pc + 4#16) [] fun _ => True)

/-! ## Index register and memory -/

/-- R191. -/
def Obligations.LoadIndex : Prop :=
  EncodedBy 0xF000#16 0xA000#16 (fun w => .ldI (nnnField w)) ∧
  ∀ nnn s, Completes (.ldI nnn) s [.i] fun t => t.i.toNat = nnn.toNat

/-- R192: modulo 65536, no flag, no fault. -/
def Obligations.AddToIndex : Prop :=
  EncodedBy 0xF0FF#16 0xF01E#16 (fun w => .addI (xField w)) ∧
  ∀ x s, Completes (.addI x) s [.i] fun t => t.i.toNat = (s.i.toNat + (s.reg x).toNat) % 65536

/-- R194: the whole byte is multiplied. -/
def Obligations.FontGlyphAddress : Prop :=
  EncodedBy 0xF0FF#16 0xF029#16 (fun w => .ldFont (xField w)) ∧
  ∀ x s, Completes (.ldFont x) s [.i] fun t => t.i.toNat = (s.reg x).toNat * 5

/-- R196: hundreds, tens and ones at `I`, `I + 1`, `I + 2`, or a fault that writes no byte. -/
def Obligations.DecimalDigitsStored : Prop :=
  EncodedBy 0xF0FF#16 0xF033#16 (fun w => .stBcd (xField w)) ∧
  (∀ x s, s.i.toNat ≤ 4093 →
    Completes (.stBcd x) s [.byte (s.ea 0), .byte (s.ea 1), .byte (s.ea 2)] fun t =>
      (t.mem.read (s.ea 0)).toNat = (s.reg x).toNat / 100 ∧
      (t.mem.read (s.ea 1)).toNat = (s.reg x).toNat / 10 % 10 ∧
      (t.mem.read (s.ea 2)).toNat = (s.reg x).toNat % 10) ∧
  ∀ x s, 4093 < s.i.toNat → TakesFault (.stBcd x) s .writeRange (max s.i.toNat 4096)

/-- R198: `V[0]` to `V[x]` at `I` up, `I` advanced by `x + 1`, no other byte changed; or a fault that writes no byte. -/
def Obligations.StoreRegisterBlock : Prop :=
  EncodedBy 0xF0FF#16 0xF055#16 (fun w => .stRegs (xField w)) ∧
  (∀ x s, s.i.toNat + x.val ≤ 4095 → ∃ t, exec (.stRegs x) s = .next t ∧ t.pc = s.pc + 2#16 ∧ t.rs = .running ∧
    (∀ j : Reg, j ≤ x → t.mem.read (s.ea j.val) = s.reg j) ∧ t.i.toNat = s.i.toNat + x.val + 1 ∧
    Frame (fun p => p = .pc ∨ p = .rs ∨ p = .i ∨ ∃ j, j ≤ x.val ∧ p = .byte (s.ea j)) s t) ∧
  ∀ x s, 4095 < s.i.toNat + x.val → TakesFault (.stRegs x) s .writeRange (max s.i.toNat 4096)

/-- R199: `V[0]` to `V[x]` from `I` up, `I` advanced by `x + 1`, memory unchanged; or a fault that writes no register. -/
def Obligations.LoadRegisterBlock : Prop :=
  EncodedBy 0xF0FF#16 0xF065#16 (fun w => .ldRegs (xField w)) ∧
  (∀ x s, s.i.toNat + x.val ≤ 4095 → ∃ t, exec (.ldRegs x) s = .next t ∧ t.pc = s.pc + 2#16 ∧ t.rs = .running ∧
    (∀ j : Reg, j ≤ x → t.reg j = s.mem.read (s.ea j.val)) ∧ t.i.toNat = s.i.toNat + x.val + 1 ∧
    Frame (fun p => p = .pc ∨ p = .rs ∨ p = .i ∨ ∃ j, j ≤ x ∧ p = .reg j) s t) ∧
  ∀ x s, 4095 < s.i.toNat + x.val → TakesFault (.ldRegs x) s .readRange (max s.i.toNat 4096)

/-- R198, R199: a block stored and then loaded from the same region, by a machine whose registers and everything else may
have changed, gives the registers back. -/
def Obligations.StoreThenLoadRoundTrip : Prop :=
  ∀ x s t, s.i.toNat + x.val ≤ 4095 → exec (.stRegs x) s = .next t →
    ∀ u : State, u.i = s.i → (∀ a, u.mem.read a = t.mem.read a) →
      ∃ w, exec (.ldRegs x) u = .next w ∧ w.i = t.i ∧ ∀ j : Reg, j ≤ x → w.reg j = s.reg j

/-- R77, R294: the bytes FX55 stores are the opcode the very next fetch reads when `PC` points at them. -/
def Obligations.StoredBytesAreFetched : Prop :=
  ∀ (x j l : Reg) s t, s.i.toNat + x.val ≤ 4095 → exec (.stRegs x) s = .next t → l.val = j.val + 1 → l ≤ x →
    t.pc.toNat = s.ea j.val → t.fetch = some (opcodeOfBytes (s.reg j) (s.reg l))

/-! ## Display -/

/-- R210. -/
def Obligations.ClearScreen : Prop :=
  EncodedBy 0xFFFF#16 0x00E0#16 (fun _ => .cls) ∧
  ∀ s, ∃ t, exec .cls s = .next t ∧ t.pc = s.pc + 2#16 ∧ t.rs = .running ∧ t.rd = true ∧
    (∀ x y, t.pixel x y = false) ∧ Frame (fun p => p = .pc ∨ p = .rs ∨ p = .rd ∨ ∃ x y, p = .pixel x y) s t

/-- R212: a pixel a set sprite bit falls on is inverted, every other pixel is unchanged; V[15] is 1 exactly when some
inverted pixel was 1; a sprite that does not fit in memory faults and draws nothing. -/
def Obligations.SpriteDraw : Prop :=
  EncodedBy 0xF000#16 0xD000#16 (fun w => .drw (xField w) (yField w) (nField w)) ∧
  (∀ x y (n : Fin 16) s, n.val = 0 ∨ s.i.toNat + n.val ≤ 4096 →
    ∃ t, exec (.drw x y n) s = .next t ∧ t.pc = s.pc + 2#16 ∧ t.rs = .running ∧ t.rd = true ∧
      (∀ px py, SpriteSets s x y n.val px py → t.pixel px py = !s.pixel px py) ∧
      (∀ px py, ¬ SpriteSets s x y n.val px py → t.pixel px py = s.pixel px py) ∧
      ((∃ px py, SpriteSets s x y n.val px py ∧ s.pixel px py = true) → t.reg 15 = 1#8) ∧
      ((¬ ∃ px py, SpriteSets s x y n.val px py ∧ s.pixel px py = true) → t.reg 15 = 0#8) ∧
      Frame (fun p => p = .pc ∨ p = .rs ∨ p = .rd ∨ p = .reg 15 ∨ ∃ px py, p = .pixel px py) s t) ∧
  ∀ x y (n : Fin 16) s, 0 < n.val → 4096 < s.i.toNat + n.val →
    TakesFault (.drw x y n) s .readRange (max s.i.toNat 4096)

/-- R212: drawing a sprite twice at one place gives the framebuffer back, and the second draw reports a collision if the
first set any pixel. With V[15] as a coordinate the flag the first draw writes moves the place, so neither register is it. -/
def Obligations.DrawTwiceRestoresScreen : Prop :=
  ∀ x y (n : Fin 16) s t, x ≠ 15 → y ≠ 15 → (n.val = 0 ∨ s.i.toNat + n.val ≤ 4096) → exec (.drw x y n) s = .next t →
    ∃ u, exec (.drw x y n) t = .next u ∧ (∀ px py, u.pixel px py = s.pixel px py) ∧
      ((∃ px py, s.pixel px py = false ∧ t.pixel px py = true) → u.reg 15 = 1#8)

/-! ## Keypad and timers -/

/-- R220, R221, R222: the level of the key that V[x] names; an index above 15 faults. -/
def Obligations.SkipOnKey : Prop :=
  (EncodedBy 0xF0FF#16 0xE09E#16 (fun w => .skp (xField w)) ∧
    EncodedBy 0xF0FF#16 0xE0A1#16 (fun w => .sknp (xField w))) ∧
  (∀ x s, ∀ k : Fin 16, k.val = (s.reg x).toNat →
    (s.key k = true → CompletesAt (.skp x) s (s.pc + 4#16) [] (fun _ => True) ∧
      CompletesAt (.sknp x) s (s.pc + 2#16) [] fun _ => True) ∧
    (s.key k = false → CompletesAt (.skp x) s (s.pc + 2#16) [] (fun _ => True) ∧
      CompletesAt (.sknp x) s (s.pc + 4#16) [] fun _ => True)) ∧
  ∀ x s, 15 < (s.reg x).toNat →
    TakesFault (.skp x) s .keyIndex (s.reg x).toNat ∧ TakesFault (.sknp x) s .keyIndex (s.reg x).toNat

/-- R225: with a key pressed, the lowest one is stored and the machine runs on; with none, only `RS` changes. -/
def Obligations.WaitForKey : Prop :=
  EncodedBy 0xF0FF#16 0xF00A#16 (fun w => .waitKey (xField w)) ∧
  (∀ x s k, s.key k = true → (∀ l, l < k → s.key l = false) →
    Completes (.waitKey x) s [.reg x] fun t => (t.reg x).toNat = k.val) ∧
  ∀ x s, (∀ k, s.key k = false) →
    ∃ t, exec (.waitKey x) s = .next t ∧ t.rs = .blocked ∧ OnlyChanges [.rs] s t

/-- R227, R228, R229. -/
def Obligations.TimerMoves : Prop :=
  (EncodedBy 0xF0FF#16 0xF007#16 (fun w => .ldFromDt (xField w)) ∧
    EncodedBy 0xF0FF#16 0xF015#16 (fun w => .ldDt (xField w)) ∧
    EncodedBy 0xF0FF#16 0xF018#16 (fun w => .ldSt (xField w))) ∧
  (∀ x s, Completes (.ldFromDt x) s [.reg x] fun t => t.reg x = s.dt) ∧
  (∀ x s, Completes (.ldDt x) s [.dt] fun t => t.dt = s.reg x) ∧
  ∀ x s, Completes (.ldSt x) s [.st] fun t => t.st = s.reg x ∧ (t.ports.soundActive = true ↔ s.reg x ≠ 0#8)

/-! ## Faults -/

/-- The fault an instruction takes in a state: its number, and what `FI` records (R241). -/
def faultOf (i : Instr) (s : State) : Option (BitVec 3 × Nat) :=
  match i with
  | .drw _ _ n => if 0 < n.val ∧ 4096 < s.i.toNat + n.val then some (2#3, max s.i.toNat 4096) else none
  | .ldRegs x => if 4095 < s.i.toNat + x.val then some (2#3, max s.i.toNat 4096) else none
  | .stBcd _ => if 4095 < s.i.toNat + 2 then some (3#3, max s.i.toNat 4096) else none
  | .stRegs x => if 4095 < s.i.toNat + x.val then some (3#3, max s.i.toNat 4096) else none
  | .call _ => if s.sp.val = 16 then some (4#3, 16) else none
  | .ret => if s.sp.val = 0 then some (5#3, 0) else none
  | .skp x => if 15 < (s.reg x).toNat then some (6#3, (s.reg x).toNat) else none
  | .sknp x => if 15 < (s.reg x).toNat then some (6#3, (s.reg x).toNat) else none
  | _ => none

/-- R241, R243, R245, R246, R247: which fault each instruction takes, when, and what `FC`, `FI` and `FPC` record, the
fault status staying as it was where there is none; `FETCH_RANGE` is code 1. -/
def Obligations.FaultCodesAndConditions : Prop :=
  (∀ i s t, exec i s = .next t → (t.rs = .faulted ↔ (faultOf i s).isSome = true) ∧
    (faultOf i s = none → t.fc = s.fc ∧ t.fi = s.fi ∧ t.fpc = s.fpc) ∧
    ∀ code info, faultOf i s = some (code, info) →
      t.ports.faultCode = code ∧ t.ports.faultInfo.toNat = info ∧ t.ports.faultPc = s.pc) ∧
  (∀ s : State, s.Executing → 4094 < s.pc.toNat → ∃ t, cycle s = .next t ∧ t.ports.faultCode = 1#3 ∧
    t.ports.faultInfo.toNat = s.pc.toNat ∧ t.ports.faultPc = s.pc) ∧
  State.reset.ports.faultCode = 0#3 ∧ State.reset.ports.faultInfo = 0#17

/-- R242: a `Cycle` that faults changes the fault status and `RS` and nothing else, and drives the output `fault`. -/
def Obligations.FaultsArePrecise : Prop :=
  ∀ s t : State, s.Executing → cycle s = .next t → t.rs = .faulted →
    t.fc ≠ .none ∧ t.fpc = s.pc ∧ t.ports.fault = true ∧ OnlyChanges [.fc, .fi, .fpc, .rs] s t

/-- R242: only `Reset` leaves FAULTED; every other event leaves the fault status and everything a program works on as
they are. -/
def Obligations.FaultedIsLeftOnlyByReset : Prop :=
  ∀ e s t, s.rs = .faulted → applyEvent e s = .next t →
    (e = .reset → t.rs = .idle) ∧
    (e ≠ .reset → Frame (fun p => p = .dt ∨ p = .st ∨ p = .rd ∨ p = .outbox ∨ ∃ k, p = .key k) s t)

/-- Every condition the spec names is a next state, so no step of the machine stops (R242, R126, R284). -/
def Obligations.StepAlwaysAnswersNextState : Prop := ∀ s, ∃ t, step s = .next t

/-! ## Host events and outputs -/

/-- R280: the reset value of every piece of state, the keypad unchanged; power-on is the same with every key released. -/
def Obligations.ResetValues : Prop :=
  (∀ s, ∃ t, applyEvent .reset s = .next t ∧
    (∀ a, a < 80 → t.mem.read a = Config.font.getD a 0#8) ∧ (∀ a, 80 ≤ a → t.mem.read a = 0#8) ∧
    (∀ x, t.reg x = 0#8) ∧ t.i = 0#16 ∧ t.pc = 0x200#16 ∧ t.dt = 0#8 ∧ t.st = 0#8 ∧ t.sp = 0 ∧
    (∀ j, t.stack.get j = 0#16) ∧ (∀ x y, t.pixel x y = false) ∧ t.rd = true ∧ t.fc = .none ∧ t.fi = 0#17 ∧
    t.fpc = 0#16 ∧ t.rs = .idle ∧ ∀ k, t.key k = s.key k) ∧
  (∀ k, State.reset.key k = false) ∧ State.reset.resetEvent = State.reset

/-- R284: accepted in IDLE and up to 3584 bytes, all or nothing; else nothing but a `load_error` pulse. -/
def Obligations.LoadProgramAllOrNothing : Prop :=
  ∀ s img,
    (s.rs = .idle → img.length ≤ 3584 → ∃ t, applyEvent (.loadProgram img) s = .next t ∧ t.rs = .running ∧
      (∀ j (h : j < img.length), t.mem.read (512 + j) = img[j]) ∧
      Frame (fun p => p = .rs ∨ ∃ j, j < img.length ∧ p = .byte (512 + j)) s t) ∧
    (s.rs ≠ .idle ∨ 3584 < img.length → ∃ t, applyEvent (.loadProgram img) s = .next t ∧
      t.outbox = .loadError :: s.outbox ∧ OnlyChanges [.outbox] s t)

/-- R289: the launch state, after `Reset` and then an accepted `LoadProgram`. -/
def Obligations.LaunchState : Prop :=
  ∀ (s : State) img, img.length ≤ 3584 → ∃ t, applyEvent (.loadProgram img) s.resetEvent = .next t ∧
    t.rs = .running ∧ t.pc = 0x200#16 ∧ (∀ x, t.reg x = 0#8) ∧ t.i = 0#16 ∧ t.dt = 0#8 ∧ t.st = 0#8 ∧ t.sp = 0 ∧
    (∀ x y, t.pixel x y = false) ∧ t.rd = true ∧ t.fc = .none ∧
    (∀ a, a < 80 → t.mem.read a = Config.font.getD a 0#8) ∧ (∀ a, 80 ≤ a → a < 512 → t.mem.read a = 0#8) ∧
    (∀ j (h : j < img.length), t.mem.read (512 + j) = img[j]) ∧
    (∀ a, 512 + img.length ≤ a → a ≤ 4095 → t.mem.read a = 0#8) ∧ ∀ k, t.key k = s.key k

/-- R260: both timers, each floored at zero, nothing else, in every run state; "after N calls to the timer tick with delay
timer initialized to N, the timer reads 0 and does not go negative on a further call". -/
def Obligations.TimersTickDownToZero : Prop :=
  (∀ s, ∃ t, applyEvent .tickTimers s = .next t ∧ t.dt.toNat = s.dt.toNat - 1 ∧ t.st.toNat = s.st.toNat - 1 ∧
    OnlyChanges [.dt, .st] s t) ∧
  ∀ n (s : State), ((State.tickTimers^[n]) s).dt.toNat = s.dt.toNat - n ∧
    ((State.tickTimers^[n]) s).st.toNat = s.st.toNat - n ∧ OnlyChanges [.dt, .st] s ((State.tickTimers^[n]) s)

/-- R263. -/
def Obligations.KeyEventSetsOneKey : Prop :=
  ∀ s k b, ∃ t, applyEvent (.keyEvent k b) s = .next t ∧ t.key k = b ∧ OnlyChanges [.key k] s t

/-- R264: `RedrawAck` clears `RD` and nothing else; bit `y * 64 + x` of `fb` is the pixel. -/
def Obligations.RedrawAckAndFramebufferPort : Prop :=
  (∀ s, ∃ t, applyEvent .redrawAck s = .next t ∧ t.rd = false ∧ OnlyChanges [.rd] s t) ∧
  ∀ (s : State) (x : Fin 64) (y : Fin 32),
    s.ports.fb.getLsbD (y.val * 64 + x.val) = s.pixel x y ∧ s.ports.redrawNeeded = s.rd

/-! ## Invariants and whole-machine rules -/

/-- The reset state meets the invariant. -/
def Obligations.ResetMeetsInvariant : Prop := State.reset.Inv

/-- Every step keeps the invariant: memory stays canonical, `PC` and the stack entries stay in their ranges (R28), the
fault status agrees with `RS` (R43, R242), BLOCKED means an FX0A at `PC` (R42), and IDLE means reset contents (R281). -/
def Obligations.StepKeepsInvariant : Prop := ∀ s t : State, s.Inv → step s = .next t → t.Inv

/-- R131: "a `Cycle()` in `BLOCKED` never faults": it changes nothing while no key is pressed, and else stores the lowest
key pressed and runs on. -/
def Obligations.BlockedCycleNeverFaults : Prop :=
  ∀ s : State, s.Inv → s.rs = .blocked → ∃ t, cycle s = .next t ∧ t.Safe ∧
    ((∀ k, s.key k = false) → t = s) ∧
    ∀ k, s.key k = true → (∀ l, l < k → s.key l = false) →
      t.pc = s.pc + 2#16 ∧ t.rs = .running ∧ ∃ x, (t.reg x).toNat = k.val ∧ OnlyChanges [.reg x, .pc, .rs] s t

/-- R61, R33, R34, R38, R40: which instructions reach memory, the framebuffer, the stack, the timers and the index
register; none changes a key, the inbox or the outbox. -/
def Obligations.OnlyNamedInstructionsWrite : Prop :=
  ∀ i s t, exec i s = .next t →
    ((∀ x, i ≠ .stBcd x ∧ i ≠ .stRegs x) → ∀ a, (Part.byte a).same s t) ∧
    ((i ≠ .cls ∧ ∀ x y n, i ≠ .drw x y n) → (∀ px py, (Part.pixel px py).same s t) ∧ t.rd = s.rd) ∧
    ((i ≠ .ret ∧ ∀ nnn, i ≠ .call nnn) → t.stack = s.stack ∧ t.sp = s.sp) ∧
    ((∀ x, i ≠ .ldDt x) → t.dt = s.dt) ∧ ((∀ x, i ≠ .ldSt x) → t.st = s.st) ∧
    ((∀ x nnn, i ≠ .ldI nnn ∧ i ≠ .addI x ∧ i ≠ .ldFont x ∧ i ≠ .stRegs x ∧ i ≠ .ldRegs x) → t.i = s.i) ∧
    (∀ k, t.key k = s.key k) ∧ t.inbox = s.inbox ∧ t.outbox = s.outbox

/-- The parts no instruction reads: the sound timer (R33), the redraw flag (R39), the run state and the fault status (R43),
and the model's inbox and outbox. -/
def unreadable (p : Part) : Prop :=
  p = .st ∨ p = .rd ∨ p = .rs ∨ p = .fc ∨ p = .fi ∨ p = .fpc ∨ p = .inbox ∨ p = .outbox

/-- R33, R39, R43: two states that differ only in parts no instruction reads still differ only in them after the same
instruction. For CXNN it rests on the model's choice that equal counts of draws give equal draws (log 3). -/
def Obligations.UnreadableStateDoesNotLeak : Prop :=
  ∀ i s s' t t', Frame unreadable s s' → exec i s = .next t → exec i s' = .next t' → Frame unreadable t t'

/-- Memories in canonical form that read alike at every address are equal data. (The form is the model's choice, log 10.) -/
def Obligations.CanonicalMemoryIsUnique : Prop :=
  ∀ m m' : Memory, m.wf → m'.wf → (∀ a, m.read a = m'.read a) → m = m'
end

