-- ==== Sys2Proof/Laws/Decode.lean ====
section
/-! SUPPORT. The fields of a word as numbers, the fields of the words the formats build (30_encoding.md R92, R93), a word
as its fields, and the three masks of the opcode map (R94) as conditions on fields. -/

namespace Sys2Proof

/-! Fields as numbers (R92). -/

theorem toNat_opField (w : Opcode) : (opField w).toNat = w.toNat / 4096 := by
  simp only [opField, BitVec.extractLsb'_toNat, Nat.shiftRight_eq_div_pow]
  omega

theorem val_xField (w : Opcode) : (xField w).val = w.toNat / 256 % 16 := by
  show (BitVec.extractLsb' 8 4 w).toNat = _
  simp only [BitVec.extractLsb'_toNat, Nat.shiftRight_eq_div_pow]

theorem val_yField (w : Opcode) : (yField w).val = w.toNat / 16 % 16 := by
  show (BitVec.extractLsb' 4 4 w).toNat = _
  simp only [BitVec.extractLsb'_toNat, Nat.shiftRight_eq_div_pow]

theorem val_nField (w : Opcode) : (nField w).val = w.toNat % 16 := by
  show (BitVec.extractLsb' 0 4 w).toNat = _
  simp only [BitVec.extractLsb'_toNat, Nat.shiftRight_eq_div_pow]
  omega

theorem toNat_nnField (w : Opcode) : (nnField w).toNat = w.toNat % 256 := by
  simp only [nnField, BitVec.extractLsb'_toNat, Nat.shiftRight_eq_div_pow]
  omega

theorem toNat_nnnField (w : Opcode) : (nnnField w).toNat = w.toNat % 4096 := by
  simp only [nnnField, BitVec.extractLsb'_toNat, Nat.shiftRight_eq_div_pow]
  omega

/-! The formats as numbers (R93). -/

theorem toNat_append_arith {a b : Nat} (x : BitVec a) (y : BitVec b) :
    (x ++ y).toNat = x.toNat * 2 ^ b + y.toNat := by
  rw [BitVec.toNat_append, ← Nat.shiftLeft_add_eq_or_of_lt y.isLt, Nat.shiftLeft_eq]

theorem regBits_toFin (x : Fin 16) : (regBits x).toFin = x := rfl

theorem toNat_regBits (x : Fin 16) : (regBits x).toNat = x.val := rfl

theorem toNat_formatNNN (op : BitVec 4) (nnn : BitVec 12) :
    (formatNNN op nnn).toNat = op.toNat * 4096 + nnn.toNat := toNat_append_arith op nnn

theorem toNat_formatXNN (op : BitVec 4) (x : Reg) (nn : Byte) :
    (formatXNN op x nn).toNat = op.toNat * 4096 + x.val * 256 + nn.toNat := by
  refine (toNat_append_arith (op ++ regBits x) nn).trans ?_
  rw [toNat_append_arith, toNat_regBits]
  omega

theorem toNat_formatXYN (op : BitVec 4) (x y : Reg) (n : BitVec 4) :
    (formatXYN op x y n).toNat = op.toNat * 4096 + x.val * 256 + y.val * 16 + n.toNat := by
  refine (toNat_append_arith (op ++ regBits x ++ regBits y) n).trans ?_
  rw [toNat_append_arith, toNat_append_arith, toNat_regBits, toNat_regBits]
  omega

/-! The fields of the words the formats build. -/

@[simp] theorem opField_formatNNN (op : BitVec 4) (nnn : BitVec 12) : opField (formatNNN op nnn) = op := by
  apply BitVec.eq_of_toNat_eq
  rw [toNat_opField, toNat_formatNNN]; omega

@[simp] theorem nnnField_formatNNN (op : BitVec 4) (nnn : BitVec 12) : nnnField (formatNNN op nnn) = nnn := by
  apply BitVec.eq_of_toNat_eq
  rw [toNat_nnnField, toNat_formatNNN]; omega

@[simp] theorem opField_formatXNN (op : BitVec 4) (x : Reg) (nn : Byte) : opField (formatXNN op x nn) = op := by
  apply BitVec.eq_of_toNat_eq
  rw [toNat_opField, toNat_formatXNN]; omega

@[simp] theorem xField_formatXNN (op : BitVec 4) (x : Reg) (nn : Byte) : xField (formatXNN op x nn) = x := by
  apply Fin.ext
  rw [val_xField, toNat_formatXNN]; omega

@[simp] theorem nnField_formatXNN (op : BitVec 4) (x : Reg) (nn : Byte) : nnField (formatXNN op x nn) = nn := by
  apply BitVec.eq_of_toNat_eq
  rw [toNat_nnField, toNat_formatXNN]; omega

@[simp] theorem opField_formatXYN (op : BitVec 4) (x y : Reg) (n : BitVec 4) : opField (formatXYN op x y n) = op := by
  apply BitVec.eq_of_toNat_eq
  rw [toNat_opField, toNat_formatXYN]; omega

@[simp] theorem xField_formatXYN (op : BitVec 4) (x y : Reg) (n : BitVec 4) : xField (formatXYN op x y n) = x := by
  apply Fin.ext
  rw [val_xField, toNat_formatXYN]; omega

@[simp] theorem yField_formatXYN (op : BitVec 4) (x y : Reg) (n : BitVec 4) : yField (formatXYN op x y n) = y := by
  apply Fin.ext
  rw [val_yField, toNat_formatXYN]; omega

@[simp] theorem nField_formatXYN (op : BitVec 4) (x y : Reg) (n : BitVec 4) :
    nField (formatXYN op x y n) = n.toFin := by
  apply Fin.ext
  rw [val_nField, toNat_formatXYN]
  show _ = n.toNat
  omega

/-! A word as its fields (R91, R92). -/

theorem formatNNN_fields (w : Opcode) : formatNNN (opField w) (nnnField w) = w := by
  apply BitVec.eq_of_toNat_eq
  rw [toNat_formatNNN, toNat_opField, toNat_nnnField]; omega

theorem formatXNN_fields (w : Opcode) : formatXNN (opField w) (xField w) (nnField w) = w := by
  apply BitVec.eq_of_toNat_eq
  rw [toNat_formatXNN, toNat_opField, val_xField, toNat_nnField]; omega

theorem formatXYN_fields (w : Opcode) : formatXYN (opField w) (xField w) (yField w) (regBits (nField w)) = w := by
  apply BitVec.eq_of_toNat_eq
  rw [toNat_formatXYN, toNat_opField, val_xField, val_yField, toNat_regBits, val_nField]; omega

/-! The masks of the opcode map (R94): a masked word is the word with the other fields 0. -/

theorem opField_and (w m : Opcode) : opField (w &&& m) = opField w &&& opField m := BitVec.extractLsb'_and

theorem nnField_and (w m : Opcode) : nnField (w &&& m) = nnField w &&& nnField m := BitVec.extractLsb'_and

theorem nnnField_and (w m : Opcode) : nnnField (w &&& m) = nnnField w &&& nnnField m := BitVec.extractLsb'_and

theorem xField_and (w m : Opcode) : xField (w &&& m) = (regBits (xField w) &&& regBits (xField m)).toFin :=
  congrArg BitVec.toFin BitVec.extractLsb'_and

theorem yField_and (w m : Opcode) : yField (w &&& m) = (regBits (yField w) &&& regBits (yField m)).toFin :=
  congrArg BitVec.toFin BitVec.extractLsb'_and

theorem nField_and (w m : Opcode) : nField (w &&& m) = (regBits (nField w) &&& regBits (nField m)).toFin :=
  congrArg BitVec.toFin BitVec.extractLsb'_and

theorem nibble_and_ones (b : BitVec 4) : b &&& 0xF#4 = b := BitVec.and_allOnes

theorem byte_and_ones (b : BitVec 8) : b &&& 0xFF#8 = b := BitVec.and_allOnes

theorem and_F000 (w : Opcode) : w &&& 0xF000#16 = formatNNN (opField w) 0#12 := by
  rw [← formatNNN_fields (w &&& 0xF000#16), opField_and, nnnField_and, show opField 0xF000#16 = 0xF#4 by decide,
    show nnnField 0xF000#16 = 0#12 by decide, nibble_and_ones, BitVec.and_zero]

theorem and_F00F (w : Opcode) : w &&& 0xF00F#16 = formatXYN (opField w) 0 0 (regBits (nField w)) := by
  rw [← formatXYN_fields (w &&& 0xF00F#16), opField_and, xField_and, yField_and, nField_and,
    show opField 0xF00F#16 = 0xF#4 by decide, show regBits (xField 0xF00F#16) = 0#4 by decide,
    show regBits (yField 0xF00F#16) = 0#4 by decide, show regBits (nField 0xF00F#16) = 0xF#4 by decide,
    nibble_and_ones, nibble_and_ones, BitVec.and_zero, BitVec.and_zero]
  rfl

theorem and_F0FF (w : Opcode) : w &&& 0xF0FF#16 = formatXNN (opField w) 0 (nnField w) := by
  rw [← formatXNN_fields (w &&& 0xF0FF#16), opField_and, xField_and, nnField_and,
    show opField 0xF0FF#16 = 0xF#4 by decide, show regBits (xField 0xF0FF#16) = 0#4 by decide,
    show nnField 0xF0FF#16 = 0xFF#8 by decide, nibble_and_ones, byte_and_ones, BitVec.and_zero]
  rfl

/-- A row of mask F000 selects by the family nibble. -/
theorem and_F000_iff (w : Opcode) (op : BitVec 4) : w &&& 0xF000#16 = formatNNN op 0#12 ↔ opField w = op := by
  rw [and_F000]
  exact ⟨fun h => by simpa using congrArg opField h, fun h => by rw [h]⟩

/-- A row of mask F00F selects by the family nibble and `n`. -/
theorem and_F00F_iff (w : Opcode) (op n : BitVec 4) :
    w &&& 0xF00F#16 = formatXYN op 0 0 n ↔ opField w = op ∧ nField w = n.toFin := by
  rw [and_F00F]
  exact ⟨fun h => ⟨by simpa using congrArg opField h, by simpa [regBits_toFin] using congrArg nField h⟩,
    fun h => by rw [h.1, h.2]; rfl⟩

/-- A row of mask F0FF selects by the family nibble and `nn`. -/
theorem and_F0FF_iff (w : Opcode) (op : BitVec 4) (nn : Byte) :
    w &&& 0xF0FF#16 = formatXNN op 0 nn ↔ opField w = op ∧ nnField w = nn := by
  rw [and_F0FF]
  exact ⟨fun h => ⟨by simpa using congrArg opField h, by simpa using congrArg nnField h⟩, fun h => by rw [h.1, h.2]⟩

end Sys2Proof
end

