-- ==== Sys2Proof/Laws/State.lean ====
section
/-! SUPPORT. One lemma per field per update of the state, true by rfl, so that no later proof unfolds a record update; then
the register accessors over them. -/

namespace Sys2Proof.Machine

/-! `State.setReg` -/

@[simp] theorem State.setReg_v (s : State) (x : Reg) (b : Byte) : (s.setReg x b).v = s.v.set x.val b x.isLt := rfl
@[simp] theorem State.setReg_pc (s : State) (x : Reg) (b : Byte) : (s.setReg x b).pc = s.pc := rfl
@[simp] theorem State.setReg_i (s : State) (x : Reg) (b : Byte) : (s.setReg x b).i = s.i := rfl
@[simp] theorem State.setReg_dt (s : State) (x : Reg) (b : Byte) : (s.setReg x b).dt = s.dt := rfl
@[simp] theorem State.setReg_st (s : State) (x : Reg) (b : Byte) : (s.setReg x b).st = s.st := rfl
@[simp] theorem State.setReg_stack (s : State) (x : Reg) (b : Byte) : (s.setReg x b).stack = s.stack := rfl
@[simp] theorem State.setReg_sp (s : State) (x : Reg) (b : Byte) : (s.setReg x b).sp = s.sp := rfl
@[simp] theorem State.setReg_mem (s : State) (x : Reg) (b : Byte) : (s.setReg x b).mem = s.mem := rfl
@[simp] theorem State.setReg_fb (s : State) (x : Reg) (b : Byte) : (s.setReg x b).fb = s.fb := rfl
@[simp] theorem State.setReg_rd (s : State) (x : Reg) (b : Byte) : (s.setReg x b).rd = s.rd := rfl
@[simp] theorem State.setReg_k (s : State) (x : Reg) (b : Byte) : (s.setReg x b).k = s.k := rfl
@[simp] theorem State.setReg_rs (s : State) (x : Reg) (b : Byte) : (s.setReg x b).rs = s.rs := rfl
@[simp] theorem State.setReg_fc (s : State) (x : Reg) (b : Byte) : (s.setReg x b).fc = s.fc := rfl
@[simp] theorem State.setReg_fi (s : State) (x : Reg) (b : Byte) : (s.setReg x b).fi = s.fi := rfl
@[simp] theorem State.setReg_fpc (s : State) (x : Reg) (b : Byte) : (s.setReg x b).fpc = s.fpc := rfl
@[simp] theorem State.setReg_draws (s : State) (x : Reg) (b : Byte) : (s.setReg x b).draws = s.draws := rfl
@[simp] theorem State.setReg_inbox (s : State) (x : Reg) (b : Byte) : (s.setReg x b).inbox = s.inbox := rfl
@[simp] theorem State.setReg_outbox (s : State) (x : Reg) (b : Byte) : (s.setReg x b).outbox = s.outbox := rfl

/-! `State.goto` -/

@[simp] theorem State.goto_v (s : State) (w : Word) : (s.goto w).v = s.v := rfl
@[simp] theorem State.goto_pc (s : State) (w : Word) : (s.goto w).pc = w := rfl
@[simp] theorem State.goto_i (s : State) (w : Word) : (s.goto w).i = s.i := rfl
@[simp] theorem State.goto_dt (s : State) (w : Word) : (s.goto w).dt = s.dt := rfl
@[simp] theorem State.goto_st (s : State) (w : Word) : (s.goto w).st = s.st := rfl
@[simp] theorem State.goto_stack (s : State) (w : Word) : (s.goto w).stack = s.stack := rfl
@[simp] theorem State.goto_sp (s : State) (w : Word) : (s.goto w).sp = s.sp := rfl
@[simp] theorem State.goto_mem (s : State) (w : Word) : (s.goto w).mem = s.mem := rfl
@[simp] theorem State.goto_fb (s : State) (w : Word) : (s.goto w).fb = s.fb := rfl
@[simp] theorem State.goto_rd (s : State) (w : Word) : (s.goto w).rd = s.rd := rfl
@[simp] theorem State.goto_k (s : State) (w : Word) : (s.goto w).k = s.k := rfl
@[simp] theorem State.goto_rs (s : State) (w : Word) : (s.goto w).rs = .running := rfl
@[simp] theorem State.goto_fc (s : State) (w : Word) : (s.goto w).fc = s.fc := rfl
@[simp] theorem State.goto_fi (s : State) (w : Word) : (s.goto w).fi = s.fi := rfl
@[simp] theorem State.goto_fpc (s : State) (w : Word) : (s.goto w).fpc = s.fpc := rfl
@[simp] theorem State.goto_draws (s : State) (w : Word) : (s.goto w).draws = s.draws := rfl
@[simp] theorem State.goto_inbox (s : State) (w : Word) : (s.goto w).inbox = s.inbox := rfl
@[simp] theorem State.goto_outbox (s : State) (w : Word) : (s.goto w).outbox = s.outbox := rfl

/-! `State.raiseFault` -/

@[simp] theorem State.raiseFault_v (s : State) (c : FaultCode) (n : Nat) : (s.raiseFault c n).v = s.v := rfl
@[simp] theorem State.raiseFault_pc (s : State) (c : FaultCode) (n : Nat) : (s.raiseFault c n).pc = s.pc := rfl
@[simp] theorem State.raiseFault_i (s : State) (c : FaultCode) (n : Nat) : (s.raiseFault c n).i = s.i := rfl
@[simp] theorem State.raiseFault_dt (s : State) (c : FaultCode) (n : Nat) : (s.raiseFault c n).dt = s.dt := rfl
@[simp] theorem State.raiseFault_st (s : State) (c : FaultCode) (n : Nat) : (s.raiseFault c n).st = s.st := rfl
@[simp] theorem State.raiseFault_stack (s : State) (c : FaultCode) (n : Nat) : (s.raiseFault c n).stack = s.stack := rfl
@[simp] theorem State.raiseFault_sp (s : State) (c : FaultCode) (n : Nat) : (s.raiseFault c n).sp = s.sp := rfl
@[simp] theorem State.raiseFault_mem (s : State) (c : FaultCode) (n : Nat) : (s.raiseFault c n).mem = s.mem := rfl
@[simp] theorem State.raiseFault_fb (s : State) (c : FaultCode) (n : Nat) : (s.raiseFault c n).fb = s.fb := rfl
@[simp] theorem State.raiseFault_rd (s : State) (c : FaultCode) (n : Nat) : (s.raiseFault c n).rd = s.rd := rfl
@[simp] theorem State.raiseFault_k (s : State) (c : FaultCode) (n : Nat) : (s.raiseFault c n).k = s.k := rfl
@[simp] theorem State.raiseFault_rs (s : State) (c : FaultCode) (n : Nat) : (s.raiseFault c n).rs = .faulted := rfl
@[simp] theorem State.raiseFault_fc (s : State) (c : FaultCode) (n : Nat) : (s.raiseFault c n).fc = c := rfl
@[simp] theorem State.raiseFault_fi (s : State) (c : FaultCode) (n : Nat) : (s.raiseFault c n).fi = BitVec.ofNat 17 n := rfl
@[simp] theorem State.raiseFault_fpc (s : State) (c : FaultCode) (n : Nat) : (s.raiseFault c n).fpc = s.pc := rfl
@[simp] theorem State.raiseFault_draws (s : State) (c : FaultCode) (n : Nat) : (s.raiseFault c n).draws = s.draws := rfl
@[simp] theorem State.raiseFault_inbox (s : State) (c : FaultCode) (n : Nat) : (s.raiseFault c n).inbox = s.inbox := rfl
@[simp] theorem State.raiseFault_outbox (s : State) (c : FaultCode) (n : Nat) : (s.raiseFault c n).outbox = s.outbox := rfl

/-! `State.resetEvent` -/

@[simp] theorem State.resetEvent_v (s : State) : (s.resetEvent).v = State.reset.v := rfl
@[simp] theorem State.resetEvent_pc (s : State) : (s.resetEvent).pc = State.reset.pc := rfl
@[simp] theorem State.resetEvent_i (s : State) : (s.resetEvent).i = State.reset.i := rfl
@[simp] theorem State.resetEvent_dt (s : State) : (s.resetEvent).dt = State.reset.dt := rfl
@[simp] theorem State.resetEvent_st (s : State) : (s.resetEvent).st = State.reset.st := rfl
@[simp] theorem State.resetEvent_stack (s : State) : (s.resetEvent).stack = State.reset.stack := rfl
@[simp] theorem State.resetEvent_sp (s : State) : (s.resetEvent).sp = State.reset.sp := rfl
@[simp] theorem State.resetEvent_mem (s : State) : (s.resetEvent).mem = State.reset.mem := rfl
@[simp] theorem State.resetEvent_fb (s : State) : (s.resetEvent).fb = State.reset.fb := rfl
@[simp] theorem State.resetEvent_rd (s : State) : (s.resetEvent).rd = State.reset.rd := rfl
@[simp] theorem State.resetEvent_k (s : State) : (s.resetEvent).k = s.k := rfl
@[simp] theorem State.resetEvent_rs (s : State) : (s.resetEvent).rs = State.reset.rs := rfl
@[simp] theorem State.resetEvent_fc (s : State) : (s.resetEvent).fc = State.reset.fc := rfl
@[simp] theorem State.resetEvent_fi (s : State) : (s.resetEvent).fi = State.reset.fi := rfl
@[simp] theorem State.resetEvent_fpc (s : State) : (s.resetEvent).fpc = State.reset.fpc := rfl
@[simp] theorem State.resetEvent_draws (s : State) : (s.resetEvent).draws = s.draws := rfl
@[simp] theorem State.resetEvent_inbox (s : State) : (s.resetEvent).inbox = s.inbox := rfl
@[simp] theorem State.resetEvent_outbox (s : State) : (s.resetEvent).outbox = s.outbox := rfl

/-! `State.loadError` -/

@[simp] theorem State.loadError_v (s : State) : (s.loadError).v = s.v := rfl
@[simp] theorem State.loadError_pc (s : State) : (s.loadError).pc = s.pc := rfl
@[simp] theorem State.loadError_i (s : State) : (s.loadError).i = s.i := rfl
@[simp] theorem State.loadError_dt (s : State) : (s.loadError).dt = s.dt := rfl
@[simp] theorem State.loadError_st (s : State) : (s.loadError).st = s.st := rfl
@[simp] theorem State.loadError_stack (s : State) : (s.loadError).stack = s.stack := rfl
@[simp] theorem State.loadError_sp (s : State) : (s.loadError).sp = s.sp := rfl
@[simp] theorem State.loadError_mem (s : State) : (s.loadError).mem = s.mem := rfl
@[simp] theorem State.loadError_fb (s : State) : (s.loadError).fb = s.fb := rfl
@[simp] theorem State.loadError_rd (s : State) : (s.loadError).rd = s.rd := rfl
@[simp] theorem State.loadError_k (s : State) : (s.loadError).k = s.k := rfl
@[simp] theorem State.loadError_rs (s : State) : (s.loadError).rs = s.rs := rfl
@[simp] theorem State.loadError_fc (s : State) : (s.loadError).fc = s.fc := rfl
@[simp] theorem State.loadError_fi (s : State) : (s.loadError).fi = s.fi := rfl
@[simp] theorem State.loadError_fpc (s : State) : (s.loadError).fpc = s.fpc := rfl
@[simp] theorem State.loadError_draws (s : State) : (s.loadError).draws = s.draws := rfl
@[simp] theorem State.loadError_inbox (s : State) : (s.loadError).inbox = s.inbox := rfl
@[simp] theorem State.loadError_outbox (s : State) : (s.loadError).outbox = .loadError :: s.outbox := rfl

/-! `State.tickTimers` -/

@[simp] theorem State.tickTimers_v (s : State) : (s.tickTimers).v = s.v := rfl
@[simp] theorem State.tickTimers_pc (s : State) : (s.tickTimers).pc = s.pc := rfl
@[simp] theorem State.tickTimers_i (s : State) : (s.tickTimers).i = s.i := rfl
@[simp] theorem State.tickTimers_dt (s : State) : (s.tickTimers).dt = tickDown s.dt := rfl
@[simp] theorem State.tickTimers_st (s : State) : (s.tickTimers).st = tickDown s.st := rfl
@[simp] theorem State.tickTimers_stack (s : State) : (s.tickTimers).stack = s.stack := rfl
@[simp] theorem State.tickTimers_sp (s : State) : (s.tickTimers).sp = s.sp := rfl
@[simp] theorem State.tickTimers_mem (s : State) : (s.tickTimers).mem = s.mem := rfl
@[simp] theorem State.tickTimers_fb (s : State) : (s.tickTimers).fb = s.fb := rfl
@[simp] theorem State.tickTimers_rd (s : State) : (s.tickTimers).rd = s.rd := rfl
@[simp] theorem State.tickTimers_k (s : State) : (s.tickTimers).k = s.k := rfl
@[simp] theorem State.tickTimers_rs (s : State) : (s.tickTimers).rs = s.rs := rfl
@[simp] theorem State.tickTimers_fc (s : State) : (s.tickTimers).fc = s.fc := rfl
@[simp] theorem State.tickTimers_fi (s : State) : (s.tickTimers).fi = s.fi := rfl
@[simp] theorem State.tickTimers_fpc (s : State) : (s.tickTimers).fpc = s.fpc := rfl
@[simp] theorem State.tickTimers_draws (s : State) : (s.tickTimers).draws = s.draws := rfl
@[simp] theorem State.tickTimers_inbox (s : State) : (s.tickTimers).inbox = s.inbox := rfl
@[simp] theorem State.tickTimers_outbox (s : State) : (s.tickTimers).outbox = s.outbox := rfl

/-! `State.keyEvent` -/

@[simp] theorem State.keyEvent_v (s : State) (key : Fin 16) (b : Bool) : (s.keyEvent key b).v = s.v := rfl
@[simp] theorem State.keyEvent_pc (s : State) (key : Fin 16) (b : Bool) : (s.keyEvent key b).pc = s.pc := rfl
@[simp] theorem State.keyEvent_i (s : State) (key : Fin 16) (b : Bool) : (s.keyEvent key b).i = s.i := rfl
@[simp] theorem State.keyEvent_dt (s : State) (key : Fin 16) (b : Bool) : (s.keyEvent key b).dt = s.dt := rfl
@[simp] theorem State.keyEvent_st (s : State) (key : Fin 16) (b : Bool) : (s.keyEvent key b).st = s.st := rfl
@[simp] theorem State.keyEvent_stack (s : State) (key : Fin 16) (b : Bool) : (s.keyEvent key b).stack = s.stack := rfl
@[simp] theorem State.keyEvent_sp (s : State) (key : Fin 16) (b : Bool) : (s.keyEvent key b).sp = s.sp := rfl
@[simp] theorem State.keyEvent_mem (s : State) (key : Fin 16) (b : Bool) : (s.keyEvent key b).mem = s.mem := rfl
@[simp] theorem State.keyEvent_fb (s : State) (key : Fin 16) (b : Bool) : (s.keyEvent key b).fb = s.fb := rfl
@[simp] theorem State.keyEvent_rd (s : State) (key : Fin 16) (b : Bool) : (s.keyEvent key b).rd = s.rd := rfl
@[simp] theorem State.keyEvent_k (s : State) (key : Fin 16) (b : Bool) : (s.keyEvent key b).k = s.k.set key.val b key.isLt := rfl
@[simp] theorem State.keyEvent_rs (s : State) (key : Fin 16) (b : Bool) : (s.keyEvent key b).rs = s.rs := rfl
@[simp] theorem State.keyEvent_fc (s : State) (key : Fin 16) (b : Bool) : (s.keyEvent key b).fc = s.fc := rfl
@[simp] theorem State.keyEvent_fi (s : State) (key : Fin 16) (b : Bool) : (s.keyEvent key b).fi = s.fi := rfl
@[simp] theorem State.keyEvent_fpc (s : State) (key : Fin 16) (b : Bool) : (s.keyEvent key b).fpc = s.fpc := rfl
@[simp] theorem State.keyEvent_draws (s : State) (key : Fin 16) (b : Bool) : (s.keyEvent key b).draws = s.draws := rfl
@[simp] theorem State.keyEvent_inbox (s : State) (key : Fin 16) (b : Bool) : (s.keyEvent key b).inbox = s.inbox := rfl
@[simp] theorem State.keyEvent_outbox (s : State) (key : Fin 16) (b : Bool) : (s.keyEvent key b).outbox = s.outbox := rfl

/-! `State.redrawAck` -/

@[simp] theorem State.redrawAck_v (s : State) : (s.redrawAck).v = s.v := rfl
@[simp] theorem State.redrawAck_pc (s : State) : (s.redrawAck).pc = s.pc := rfl
@[simp] theorem State.redrawAck_i (s : State) : (s.redrawAck).i = s.i := rfl
@[simp] theorem State.redrawAck_dt (s : State) : (s.redrawAck).dt = s.dt := rfl
@[simp] theorem State.redrawAck_st (s : State) : (s.redrawAck).st = s.st := rfl
@[simp] theorem State.redrawAck_stack (s : State) : (s.redrawAck).stack = s.stack := rfl
@[simp] theorem State.redrawAck_sp (s : State) : (s.redrawAck).sp = s.sp := rfl
@[simp] theorem State.redrawAck_mem (s : State) : (s.redrawAck).mem = s.mem := rfl
@[simp] theorem State.redrawAck_fb (s : State) : (s.redrawAck).fb = s.fb := rfl
@[simp] theorem State.redrawAck_rd (s : State) : (s.redrawAck).rd = false := rfl
@[simp] theorem State.redrawAck_k (s : State) : (s.redrawAck).k = s.k := rfl
@[simp] theorem State.redrawAck_rs (s : State) : (s.redrawAck).rs = s.rs := rfl
@[simp] theorem State.redrawAck_fc (s : State) : (s.redrawAck).fc = s.fc := rfl
@[simp] theorem State.redrawAck_fi (s : State) : (s.redrawAck).fi = s.fi := rfl
@[simp] theorem State.redrawAck_fpc (s : State) : (s.redrawAck).fpc = s.fpc := rfl
@[simp] theorem State.redrawAck_draws (s : State) : (s.redrawAck).draws = s.draws := rfl
@[simp] theorem State.redrawAck_inbox (s : State) : (s.redrawAck).inbox = s.inbox := rfl
@[simp] theorem State.redrawAck_outbox (s : State) : (s.redrawAck).outbox = s.outbox := rfl

/-! Compound updates reduce to `setReg` and `goto`. -/

@[simp] theorem State.advance_eq (s : State) : s.advance = s.goto (s.pc + 2#16) := rfl

@[simp] theorem State.skipIf_eq (s : State) (c : Bool) : s.skipIf c = s.goto (s.pc + if c then 4#16 else 2#16) := rfl

@[simp] theorem State.setResultThenFlag_eq (s : State) (x : Reg) (r f : Byte) :
    s.setResultThenFlag x r f = (s.setReg x r).setReg 15 f := rfl

@[simp] theorem State.retire_eq (s : State) (x : Reg) (r : Byte) :
    s.retire x r = (s.setReg x r).goto (s.pc + 2#16) := rfl

@[simp] theorem State.retireFlag_eq (s : State) (x : Reg) (r f : Byte) :
    s.retireFlag x r f = ((s.setReg x r).setReg 15 f).goto (s.pc + 2#16) := rfl

/-! Registers, pixels and keys through their accessors. -/

theorem State.reg_eq_of_v {s t : State} (h : t.v = s.v) (x : Reg) : t.reg x = s.reg x := by
  simp [State.reg, h]

theorem State.pixel_eq_of_fb {s t : State} (h : t.fb = s.fb) (x : Fin 64) (y : Fin 32) : t.pixel x y = s.pixel x y := by
  simp [State.pixel, h]

theorem State.key_eq_of_k {s t : State} (h : t.k = s.k) (j : Fin 16) : t.key j = s.key j := by
  simp [State.key, h]

/-- A register write changes the register named and no other (R21). -/
theorem State.reg_setReg (s : State) (x y : Reg) (b : Byte) :
    (s.setReg x b).reg y = if x = y then b else s.reg y := by
  simp only [State.reg, State.setReg, Vector.get_eq_getElem, Vector.getElem_set, Fin.val_inj]

@[simp] theorem State.reg_setReg_self (s : State) (x : Reg) (b : Byte) : (s.setReg x b).reg x = b := by
  simp [State.reg_setReg]

theorem State.reg_setReg_ne (s : State) {x y : Reg} (b : Byte) (h : x ≠ y) : (s.setReg x b).reg y = s.reg y := by
  simp [State.reg_setReg, h]

@[simp] theorem State.reg_goto (s : State) (w : Word) (x : Reg) : (s.goto w).reg x = s.reg x := rfl

@[simp] theorem State.reg_raiseFault (s : State) (c : FaultCode) (n : Nat) (x : Reg) :
    (s.raiseFault c n).reg x = s.reg x := rfl

@[simp] theorem State.reg_reset (x : Reg) : State.reset.reg x = 0#8 := by
  simp [State.reg, State.reset, Vector.get_eq_getElem]

/-- A key event changes the key named and no other (R263). -/
theorem State.key_keyEvent (s : State) (j l : Fin 16) (b : Bool) :
    (s.keyEvent j b).key l = if j = l then b else s.key l := by
  simp only [State.key, State.keyEvent, Vector.get_eq_getElem, Vector.getElem_set, Fin.val_inj]

/-! Frames. -/

theorem OnlyChanges.refl (parts : List Part) (s : State) : OnlyChanges parts s s := by
  intro p _
  cases p <;> rfl

/-- A fault is its whole effect and nothing else (R242). -/
theorem Faults.of_raiseFault (s : State) (c : FaultCode) (n : Nat) (h : n < 2 ^ 17) :
    Faults c n s (s.raiseFault c n) := by
  refine ⟨rfl, ?_, rfl, rfl, ?_⟩
  · simp only [State.raiseFault_fi, BitVec.toNat_ofNat]; omega
  · intro p hp
    cases p <;> first | rfl | simp at hp

/-- A write of one register and of the program counter. -/
theorem OnlyChanges.setReg_goto (s : State) (x : Reg) (b : Byte) (w : Word) :
    OnlyChanges [.pc, .rs, .reg x] s ((s.setReg x b).goto w) := by
  intro p hp
  cases p with
  | reg y =>
    have : x ≠ y := by rintro rfl; simp at hp
    simp [Part.same, State.reg_setReg, this]
  | _ => first | rfl | simp at hp

/-- A write of a result register, then of V[15] (R23), and of the program counter. -/
theorem OnlyChanges.setReg_setReg_goto (s : State) (x : Reg) (b f : Byte) (w : Word) :
    OnlyChanges [.pc, .rs, .reg x, .reg 15] s (((s.setReg x b).setReg 15 f).goto w) := by
  intro p hp
  cases p with
  | reg y =>
    have h1 : x ≠ y := by rintro rfl; simp at hp
    have h2 : 15 ≠ y := by rintro rfl; simp at hp
    simp [Part.same, State.reg_setReg, h1, h2]
  | _ => first | rfl | simp at hp

/-- A write of the program counter. -/
theorem OnlyChanges.goto (s : State) (w : Word) : OnlyChanges [.pc, .rs] s (s.goto w) := by
  intro p hp
  cases p <;> first | rfl | simp at hp

end Sys2Proof.Machine
end

