-- ==== Sys2Proof/Laws/Memory.lean ====
section
/-! SUPPORT. Memory: read after write, the canonical form and that every operation keeps it, the range check, and blocks of
bytes (20_memory.md). -/

namespace Sys2Proof.Machine

open Config (AddrPolicy)

@[simp] theorem Memory.read_nil (a : Nat) : Memory.read [] a = Memory.resetByte a := rfl

theorem Memory.read_cons (b : Nat) (w : Byte) (m : Memory) (a : Nat) :
    Memory.read ((b, w) :: m) a = if a = b then w else Memory.read m a := rfl

theorem Memory.read_erase (m : Memory) (a c : Nat) :
    Memory.read (m.erase a) c = if c = a then Memory.resetByte c else m.read c := by
  induction m with
  | nil => simp [Memory.erase]
  | cons p m ih =>
    obtain ⟨b, w⟩ := p
    simp only [Memory.erase]
    split <;> simp only [Memory.read_cons, ih] <;> split_ifs <;> simp_all

theorem Memory.read_insert (m : Memory) (a c : Nat) (v : Byte) :
    Memory.read (m.insert a v) c = if c = a then v else m.read c := by
  induction m with
  | nil => simp [Memory.insert, Memory.read_cons]
  | cons p m ih =>
    obtain ⟨b, w⟩ := p
    simp only [Memory.insert]
    split
    · simp only [Memory.read_cons]
    · split <;> simp only [Memory.read_cons, ih] <;> split_ifs <;> simp_all

/-- A read after a write (R63, R73): the byte written at the address written, and every other byte as before. -/
theorem Memory.read_write (m : Memory) (a c : Nat) (v : Byte) :
    Memory.read (m.write a v) c = if c = a then v else m.read c := by
  simp only [Memory.write]
  split
  · next h => rw [Memory.read_erase]; split_ifs with hc <;> simp_all
  · rw [Memory.read_insert]

/-! The canonical form. -/

theorem Memory.wf_nil : Memory.wf [] := by simp [Memory.wf]

theorem Memory.mem_erase {m : Memory} {a : Nat} {p : Host.Cell} (h : p ∈ m.erase a) : p ∈ m := by
  induction m with
  | nil => simp [Memory.erase] at h
  | cons q m ih =>
    obtain ⟨b, w⟩ := q
    simp only [Memory.erase] at h
    split at h
    · exact List.mem_cons_of_mem _ (ih h)
    · rcases List.mem_cons.1 h with rfl | h
      · exact List.mem_cons_self
      · exact List.mem_cons_of_mem _ (ih h)

theorem Memory.mem_insert {m : Memory} {a : Nat} {v : Byte} {p : Host.Cell} (h : p ∈ m.insert a v) :
    p = (a, v) ∨ p ∈ m := by
  induction m with
  | nil => simpa [Memory.insert] using h
  | cons q m ih =>
    obtain ⟨b, w⟩ := q
    simp only [Memory.insert] at h
    split at h
    · simpa using h
    · split at h
      · rcases List.mem_cons.1 h with h | h
        · exact .inl h
        · exact .inr (List.mem_cons_of_mem _ h)
      · rcases List.mem_cons.1 h with h | h
        · exact .inr (by simp [h])
        · exact (ih h).imp_right (List.mem_cons_of_mem _)

theorem Memory.pairwise_erase {m : Memory} (a : Nat) (h : m.Pairwise (fun p q => p.1 < q.1)) :
    (m.erase a).Pairwise (fun p q => p.1 < q.1) := by
  induction m with
  | nil => simp [Memory.erase]
  | cons q m ih =>
    obtain ⟨b, w⟩ := q
    rw [List.pairwise_cons] at h
    simp only [Memory.erase]
    split
    · exact ih h.2
    · exact List.pairwise_cons.2 ⟨fun p hp => h.1 p (Memory.mem_erase hp), ih h.2⟩

theorem Memory.pairwise_insert {m : Memory} (a : Nat) (v : Byte) (h : m.Pairwise (fun p q => p.1 < q.1)) :
    (m.insert a v).Pairwise (fun p q => p.1 < q.1) := by
  induction m with
  | nil => simp [Memory.insert]
  | cons q m ih =>
    obtain ⟨b, w⟩ := q
    have h' := List.pairwise_cons.1 h
    simp only [Memory.insert]
    split
    · next hab =>
      refine List.pairwise_cons.2 ⟨fun p hp => ?_, h⟩
      rcases List.mem_cons.1 hp with rfl | hp
      · exact hab
      · exact Nat.lt_trans hab (h'.1 p hp)
    · split
      · next hab => subst hab; exact List.pairwise_cons.2 ⟨h'.1, h'.2⟩
      · next h1 h2 =>
        refine List.pairwise_cons.2 ⟨fun p hp => ?_, ih h'.2⟩
        rcases Memory.mem_insert hp with rfl | hp
        · show b < a; omega
        · exact h'.1 p hp

/-- A write to an existing address keeps the canonical form. -/
theorem Memory.wf_write {m : Memory} {a : Nat} (v : Byte) (h : m.wf) (ha : a < Config.memSize) : (m.write a v).wf := by
  simp only [Memory.write]
  split
  · exact ⟨Memory.pairwise_erase a h.1, fun p hp => h.2 p (Memory.mem_erase hp)⟩
  · next hv =>
    refine ⟨Memory.pairwise_insert a v h.1, fun p hp => ?_⟩
    rcases Memory.mem_insert hp with rfl | hp
    · exact ⟨ha, hv⟩
    · exact h.2 p hp

/-! The range check. -/

@[simp] theorem cellOf_fault (a : Nat) : cellOf .fault a = a := rfl

@[simp] theorem outOfRange_mask12 (start len : Nat) : outOfRange .mask12 start len = none := rfl

/-- No access is out of range exactly when the block is empty or ends below 4096. -/
theorem outOfRange_eq_none {start len : Nat} : outOfRange .fault start len = none ↔ len = 0 ∨ start + len ≤ 4096 := by
  simp only [outOfRange, List.find?_eq_none, List.mem_map, List.mem_range]
  constructor
  · intro h
    rcases Nat.eq_zero_or_pos len with h0 | h0
    · exact .inl h0
    · have := h (start + (len - 1)) ⟨len - 1, by omega, rfl⟩
      simp only [decide_eq_true_eq] at this
      omega
  · rintro h _ ⟨j, hj, rfl⟩
    simp only [decide_eq_true_eq]
    omega

/-- The address reported is the lowest one out of range, `max(start, 4096)` (R241, R244). -/
theorem outOfRange_eq_some {start len a : Nat} :
    outOfRange .fault start len = some a ↔ 0 < len ∧ 4096 < start + len ∧ a = max start 4096 := by
  rcases h : outOfRange .fault start len with _ | b
  · have := outOfRange_eq_none.1 h
    constructor
    · simp
    · rintro ⟨h1, h2, -⟩; omega
  · have hne : ¬ (len = 0 ∨ start + len ≤ 4096) := fun hc => by simp [outOfRange_eq_none.2 hc] at h
    have hb : b = max start 4096 := by
      simp only [outOfRange, List.find?_map, Option.map_eq_some_iff, List.find?_range_eq_some, Function.comp,
        decide_eq_true_eq] at h
      obtain ⟨j, ⟨h1, h2, h3⟩, rfl⟩ := h
      rcases Nat.eq_zero_or_pos j with rfl | hj
      · omega
      · have := h3 (j - 1) (by omega)
        simp at this
        omega
    simp only [Option.some.injEq]
    constructor
    · rintro rfl; exact ⟨by omega, by omega, hb⟩
    · rintro ⟨-, -, rfl⟩; exact hb

/-! Blocks of bytes. -/

@[simp] theorem length_loadBytes (p : AddrPolicy) (m : Memory) (start len : Nat) :
    (loadBytes p m start len).length = len := by
  simp [loadBytes]

@[simp] theorem getElem_loadBytes (m : Memory) (start len j : Nat) (h : j < (loadBytes .fault m start len).length) :
    (loadBytes .fault m start len)[j] = m.read (start + j) := by
  simp [loadBytes]

/-- A block store writes the block's bytes at its addresses and nothing else (R70). -/
theorem read_storeBytes (m : Memory) (a : Nat) (bs : List Byte) (c : Nat) :
    (storeBytes .fault m a bs).read c = if a ≤ c then bs.getD (c - a) (m.read c) else m.read c := by
  induction bs generalizing m a with
  | nil => simp [storeBytes]
  | cons b bs ih =>
    rw [storeBytes, ih, cellOf_fault, Memory.read_write]
    rcases Nat.lt_trichotomy c a with h | h | h
    · rw [if_neg (by omega), if_neg (by omega), if_neg (by omega)]
    · subst h
      rw [if_neg (by omega), if_pos rfl, if_pos (Nat.le_refl _), Nat.sub_self, List.getD_cons_zero]
    · have hs : c - a = (c - (a + 1)) + 1 := by omega
      rw [if_pos (show a + 1 ≤ c by omega), if_pos (show a ≤ c by omega), if_neg (show c ≠ a by omega), hs,
        List.getD_cons_succ]

theorem read_storeBytes_outside {m : Memory} {a : Nat} {bs : List Byte} {c : Nat} (h : c < a ∨ a + bs.length ≤ c) :
    (storeBytes .fault m a bs).read c = m.read c := by
  rw [read_storeBytes]
  split
  · rw [List.getD_eq_default _ _ (by omega)]
  · rfl

theorem read_storeBytes_inside {m : Memory} {a : Nat} {bs : List Byte} {j : Nat} (h : j < bs.length) :
    (storeBytes .fault m a bs).read (a + j) = bs[j] := by
  rw [read_storeBytes, if_pos (by omega), show a + j - a = j by omega, List.getD_eq_getElem _ _ h]

/-- A block store to existing addresses keeps the canonical form. -/
theorem wf_storeBytes {m : Memory} {a : Nat} {bs : List Byte} (h : m.wf) (hb : bs = [] ∨ a + bs.length ≤ 4096) :
    (storeBytes .fault m a bs).wf := by
  induction bs generalizing m a with
  | nil => exact h
  | cons b bs ih =>
    have hlen : a + (bs.length + 1) ≤ 4096 := by simpa using hb
    exact ih (Memory.wf_write b h (show a < 4096 by omega)) (.inr (by omega))

/-- A stored opcode is read back high byte first (R67). -/
theorem read_storeOpcode (m : Memory) (a : Nat) (w : Opcode) (c : Nat) :
    (storeOpcode m a w).read c =
      if c = a + 1 then w.extractLsb' 0 8 else if c = a then w.extractLsb' 8 8 else m.read c := by
  simp only [storeOpcode, Memory.read_write]

end Sys2Proof.Machine
end

