-- ==== Sys2Proof/Laws/Ops.lean ====
section
/-! SUPPORT. One lemma per shared operation, saying once everything it can do: the fetch, the checked effect, the call
stack, register blocks, the key operands. -/

namespace Sys2Proof.Machine

/-! The settings of this machine. -/

@[simp] theorem addrPolicy_eq : Config.addrPolicy = .fault := rfl

@[simp] theorem shiftSource_eq : Config.shiftSource = .vx := rfl

@[simp] theorem keyIndexPolicy_eq : Config.keyIndexPolicy = .fault := rfl

@[simp] theorem stackFaultPolicy_eq : Config.stackFaultPolicy = .fault := rfl

@[simp] theorem State.stackFault_fault (s : State) (c : FaultCode) (n : Nat) :
    s.stackFault .fault c n = s.raiseFault c n := rfl

@[simp] theorem shiftOperand_vx (a b : Byte) : shiftOperand .vx a b = a := rfl

@[simp] theorem shiftOperand_vy (a b : Byte) : shiftOperand .vy a b = b := rfl

/-- "use `y = x`, for which both settings agree" (R164). -/
theorem shiftOperand_self (p : Config.ShiftSource) (a : Byte) : shiftOperand p a a = a := by
  cases p <;> rfl

/-! The fetch (R121). -/

theorem State.fetch_of_le {s : State} (h : s.pc.toNat ≤ 4094) :
    s.fetch = some (opcodeOfBytes (s.mem.read s.pc.toNat) (s.mem.read (s.pc.toNat + 1))) := by
  have : outOfRange .fault s.pc.toNat 2 = none := outOfRange_eq_none.2 (.inr (by omega))
  simp [State.fetch, fetchAt, this]

theorem State.fetch_of_gt {s : State} (h : 4094 < s.pc.toNat) : s.fetch = none := by
  have : outOfRange .fault s.pc.toNat 2 = some (max s.pc.toNat 4096) :=
    outOfRange_eq_some.2 ⟨by omega, by omega, rfl⟩
  simp [State.fetch, fetchAt, this]

theorem State.fetch_eq_some {s : State} {w : Opcode} (h : s.fetch = some w) :
    s.pc.toNat ≤ 4094 ∧ w = opcodeOfBytes (s.mem.read s.pc.toNat) (s.mem.read (s.pc.toNat + 1)) := by
  rcases Nat.lt_or_ge 4094 s.pc.toNat with h1 | h1
  · rw [State.fetch_of_gt h1] at h; cases h
  · rw [State.fetch_of_le h1, Option.some.injEq] at h; exact ⟨h1, h.symm⟩

theorem State.fetch_congr {s t : State} (hm : t.mem = s.mem) (hp : t.pc = s.pc) : t.fetch = s.fetch := by
  simp [State.fetch, hm, hp]

/-! Checked effects (R242). -/

theorem State.checked_cases (s : State) (bad : Option Nat) (c : FaultCode) (e : State) :
    (bad = none ∧ s.checked bad c e = e) ∨ (∃ a, bad = some a ∧ s.checked bad c e = s.raiseFault c a) := by
  cases bad with
  | none => exact .inl ⟨rfl, rfl⟩
  | some a => exact .inr ⟨a, rfl, rfl⟩

/-- The range check of a block at `I` passes when the block is empty or ends below 4096. -/
theorem State.indexOutOfRange_none {s : State} {len : Nat} (h : len = 0 ∨ s.i.toNat + len ≤ 4096) :
    s.indexOutOfRange len = none := by
  simpa [State.indexOutOfRange, State.ea] using outOfRange_eq_none.2 h

/-- Otherwise it reports `max(I, 4096)` (R241). -/
theorem State.indexOutOfRange_some {s : State} {len : Nat} (h : 0 < len) (h' : 4096 < s.i.toNat + len) :
    s.indexOutOfRange len = some (max s.i.toNat 4096) := by
  simpa [State.indexOutOfRange, State.ea] using outOfRange_eq_some.2 ⟨h, h', rfl⟩

/-! The call stack (R34). -/

theorem State.push?_eq_some {s t : State} {w : Word} (h : s.push? w = some t) :
    ∃ hd : s.sp.val < 16, t = { s with stack := s.stack.set s.sp.val w hd, sp := ⟨s.sp.val + 1, Nat.succ_lt_succ hd⟩ } := by
  simp only [State.push?] at h
  split at h
  · next hd => exact ⟨hd, (Option.some.inj h).symm⟩
  · cases h

theorem State.push?_of_lt {s : State} (w : Word) (h : s.sp.val < 16) :
    s.push? w = some { s with stack := s.stack.set s.sp.val w h, sp := ⟨s.sp.val + 1, Nat.succ_lt_succ h⟩ } := by
  simp [State.push?, h]

theorem State.push?_full {s : State} (w : Word) (h : s.sp.val = 16) : s.push? w = none := by
  simp [State.push?, h]

theorem State.pop?_of_pos {s : State} (h : 0 < s.sp.val) :
    s.pop? = some (s.stack[s.sp.val - 1]'(by omega), { s with sp := ⟨s.sp.val - 1, by omega⟩ }) := by
  simp [State.pop?, h]

theorem State.pop?_empty {s : State} (h : s.sp.val = 0) : s.pop? = none := by
  simp [State.pop?, h]

/-! Register blocks (R199). -/

theorem get_writeRegs (v : Vector Byte 16) (j : Nat) (bs : List Byte) (x : Reg) :
    (writeRegs v j bs).get x = if j ≤ x.val then bs.getD (x.val - j) (v.get x) else v.get x := by
  induction bs generalizing v j with
  | nil => simp [writeRegs]
  | cons b bs ih =>
    rw [writeRegs, ih]
    simp only [Vector.get_eq_getElem, Vector.getElem_setIfInBounds]
    rcases Nat.lt_trichotomy x.val j with h | h | h
    · rw [if_neg (show ¬ j + 1 ≤ x.val by omega), if_neg (show ¬ j = x.val by omega), if_neg (show ¬ j ≤ x.val by omega)]
    · rw [if_neg (show ¬ j + 1 ≤ x.val by omega), if_pos h.symm, if_pos (show j ≤ x.val by omega),
        show x.val - j = 0 by omega, List.getD_cons_zero]
    · rw [if_pos (show j + 1 ≤ x.val by omega), if_neg (show ¬ j = x.val by omega), if_pos (show j ≤ x.val by omega),
        show x.val - j = (x.val - (j + 1)) + 1 by omega, List.getD_cons_succ]

/-! Keys (R220, R225). -/

theorem keyOf_fault_of_lt {b : Byte} (h : b.toNat < 16) : keyOf .fault b = some ⟨b.toNat, h⟩ := by
  simp [keyOf, h]

theorem keyOf_fault_of_ge {b : Byte} (h : 15 < b.toNat) : keyOf .fault b = none := by
  simp [keyOf]; omega

/-- The lowest pressed key is pressed, and no lower one is (R225). -/
theorem State.lowestKey_eq_some {s : State} {j : Fin 16} :
    s.lowestKey = some j ↔ s.key j = true ∧ ∀ l, l < j → s.key l = false := by
  simp only [State.lowestKey, List.find?_eq_some_iff_getElem, List.length_finRange, List.getElem_finRange]
  constructor
  · rintro ⟨hj, l, hl, rfl, h⟩
    refine ⟨hj, fun q hq => ?_⟩
    have := h q.val hq
    simpa using this
  · rintro ⟨hj, h⟩
    refine ⟨hj, j.val, j.isLt, by simp, fun l hl => ?_⟩
    simpa using h ⟨l, by omega⟩ hl

theorem State.lowestKey_eq_none {s : State} : s.lowestKey = none ↔ ∀ j, s.key j = false := by
  simp [State.lowestKey]

/-! Every meaning answers a next state: no instruction stops the machine. -/

theorem exec_next (i : Instr) (s : State) : ∃ t, exec i s = .next t := by
  cases i <;> simp only [exec] <;>
    first
    | exact ⟨_, rfl⟩
    | (simp only [execRet]; split <;> exact ⟨_, rfl⟩)
    | (simp only [execCall]; split <;> exact ⟨_, rfl⟩)
    | (simp only [execWaitKey]; split <;> exact ⟨_, rfl⟩)

/-! `Cycle` (R120). -/

theorem cycle_of_executing {s : State} (h : s.Executing) : cycle s = fetchExecute s := by
  unfold cycle
  rcases h with h | h <;> rw [h]

/-- Everything a `Cycle` can do where the machine executes: fail to fetch, execute, or meet an unknown opcode. -/
theorem cycle_cases {s t : State} (he : s.Executing) (h : cycle s = .next t) :
    (4094 < s.pc.toNat ∧ t = s.raiseFault .fetchRange s.pc.toNat) ∨
    (∃ w i, s.pc.toNat ≤ 4094 ∧ s.fetch = some w ∧ decode w = .ok i ∧ exec i s = .next t) ∨
    ∃ w c, s.pc.toNat ≤ 4094 ∧ s.fetch = some w ∧ decode w = .error c ∧ execUnknown w s = .next t := by
  simp only [cycle_of_executing he, fetchExecute] at h
  rcases Nat.lt_or_ge 4094 s.pc.toNat with hp | hp
  · rw [State.fetch_of_gt hp] at h
    cases h
    exact .inl ⟨hp, rfl⟩
  · have hf := State.fetch_of_le hp
    rw [hf] at h
    rcases hd : decode (opcodeOfBytes (s.mem.read s.pc.toNat) (s.mem.read (s.pc.toNat + 1))) with c | i <;>
      simp only [hd] at h
    · exact .inr (.inr ⟨_, c, hp, hf, hd, h⟩)
    · exact .inr (.inl ⟨_, i, hp, hf, hd, h⟩)

end Sys2Proof.Machine
end

