-- ==== Sys2Proof/Laws/Display.lean ====
section
/-! SUPPORT. What drawing does to each pixel and to the collision flag (44_display.md R212): one lemma per function. -/

namespace Sys2Proof.Machine

/-- The pixel of a canvas at column `x` and row `y`. -/
def Canvas.pixel (cv : Canvas) (x : Fin 64) (y : Fin 32) : Bool := (cv.1.get y).getLsbD x.val

theorem pixel_flipPixel (px : Fin 64) (py : Fin 32) (cv : Canvas) (x : Fin 64) (y : Fin 32) :
    Canvas.pixel (flipPixel px.val py.val cv) x y = (cv.pixel x y ^^ (decide (x = px) && decide (y = py))) := by
  have hx : x.val < Config.fbWidth := x.isLt
  simp only [Canvas.pixel, flipPixel, py.isLt, dif_pos, Vector.get_eq_getElem, Vector.getElem_set]
  split
  · next h =>
    have hy : y = py := Fin.ext h.symm
    subst hy
    simp only [BitVec.getLsbD_xor, BitVec.getLsbD_twoPow]
    by_cases hpx : x = px
    · subst hpx; simp
    · have hpx' : ¬ px = x := fun e => hpx e.symm
      simp [hpx, hpx', Fin.val_inj]
  · next h =>
    have hy : y ≠ py := fun e => h (congrArg Fin.val e.symm)
    simp [hy]

theorem collision_flipPixel (px : Fin 64) (py : Fin 32) (cv : Canvas) :
    (flipPixel px.val py.val cv).2 = (cv.2 || cv.pixel px py) := by
  simp [flipPixel, Canvas.pixel, py.isLt, Vector.get_eq_getElem]

/-- The column offset at which a sprite starting at column `x0` reaches column `x`. -/
def columnOffset (x0 : Nat) (x : Fin 64) : Nat := (x.val + 64 - x0) % 64

/-- The row offset at which a sprite starting at row `y0` reaches row `y`. -/
def rowOffset (y0 : Nat) (y : Fin 32) : Nat := (y.val + 32 - y0) % 32

/-- The first `m` bits of a sprite row. -/
def drawBits (msbLeft : Bool) (x0 py : Nat) (row : Byte) (cv : Canvas) (m : Nat) : Canvas :=
  (List.range m).foldl
    (fun cv c => if spriteBit msbLeft row c then flipPixel ((x0 + c) % Config.fbWidth) py cv else cv) cv

theorem drawBits_succ (msbLeft : Bool) (x0 py : Nat) (row : Byte) (cv : Canvas) (m : Nat) :
    drawBits msbLeft x0 py row cv (m + 1) =
      if spriteBit msbLeft row m then flipPixel ((x0 + m) % 64) py (drawBits msbLeft x0 py row cv m)
      else drawBits msbLeft x0 py row cv m := by
  simp [drawBits, List.range_succ]

theorem columnOffset_eq_iff {x0 m : Nat} (hx0 : x0 < 64) (hm : m < 64) (x : Fin 64) :
    columnOffset x0 x = m ↔ x.val = (x0 + m) % 64 := by
  simp only [columnOffset]; omega

theorem pixel_drawBits (msbLeft : Bool) {x0 : Nat} (hx0 : x0 < 64) (py : Fin 32) (row : Byte) (cv : Canvas)
    (m : Nat) (hm : m ≤ 8) (x : Fin 64) (y : Fin 32) :
    Canvas.pixel (drawBits msbLeft x0 py.val row cv m) x y =
      (cv.pixel x y ^^ (decide (y = py) && (decide (columnOffset x0 x < m) && spriteBit msbLeft row (columnOffset x0 x)))) := by
  induction m with
  | zero => simp [drawBits]
  | succ m ih =>
    have ih := ih (by omega)
    have hc := columnOffset_eq_iff hx0 (show m < 64 by omega) x
    have hlt : (x0 + m) % 64 < 64 := Nat.mod_lt _ (by omega)
    have hd : decide (columnOffset x0 x < m + 1) = (decide (columnOffset x0 x < m) || decide (columnOffset x0 x = m)) := by
      simp only [← Bool.decide_or]; congr 1; exact propext (by omega)
    rw [drawBits_succ, hd]
    by_cases hb : spriteBit msbLeft row m
    · rw [if_pos hb]
      have := pixel_flipPixel ⟨(x0 + m) % 64, hlt⟩ py (drawBits msbLeft x0 py.val row cv m) x y
      rw [this, ih, show decide (x = ⟨(x0 + m) % 64, hlt⟩) = decide (columnOffset x0 x = m) by simp [hc, Fin.ext_iff]]
      by_cases he : columnOffset x0 x = m
      · simp [he, hb, Bool.xor_comm]
      · simp [he]
    · rw [if_neg hb, ih]
      by_cases he : columnOffset x0 x = m
      · simp [he, hb]
      · simp [he]

theorem collision_drawBits (msbLeft : Bool) {x0 : Nat} (hx0 : x0 < 64) (py : Fin 32) (row : Byte) (cv : Canvas)
    (m : Nat) (hm : m ≤ 8) :
    (drawBits msbLeft x0 py.val row cv m).2 = true ↔
      cv.2 = true ∨ ∃ x, columnOffset x0 x < m ∧ spriteBit msbLeft row (columnOffset x0 x) = true ∧ cv.pixel x py = true := by
  induction m with
  | zero => simp [drawBits]
  | succ m ih =>
    have ih := ih (by omega)
    have hlt : (x0 + m) % 64 < 64 := Nat.mod_lt _ (by omega)
    have hself : columnOffset x0 ⟨(x0 + m) % 64, hlt⟩ = m :=
      (columnOffset_eq_iff hx0 (show m < 64 by omega) _).2 rfl
    rw [drawBits_succ]
    by_cases hb : spriteBit msbLeft row m
    · rw [if_pos hb, collision_flipPixel ⟨(x0 + m) % 64, hlt⟩ py, Bool.or_eq_true, ih,
        pixel_drawBits msbLeft hx0 py row cv m (by omega), hself]
      constructor
      · rintro ((h | ⟨x, h1, h2, h3⟩) | h)
        · exact .inl h
        · exact .inr ⟨x, by omega, h2, h3⟩
        · exact .inr ⟨⟨(x0 + m) % 64, hlt⟩, by omega, by rw [hself]; exact hb, by simpa using h⟩
      · rintro (h | ⟨x, h1, h2, h3⟩)
        · exact .inl (.inl h)
        · rcases Nat.lt_or_ge (columnOffset x0 x) m with h4 | h4
          · exact .inl (.inr ⟨x, h4, h2, h3⟩)
          · have hx : x = ⟨(x0 + m) % 64, hlt⟩ :=
              Fin.ext ((columnOffset_eq_iff hx0 (show m < 64 by omega) x).1 (by omega))
            subst hx
            exact .inr (by simpa using h3)
    · rw [if_neg hb, ih]
      constructor
      · rintro (h | ⟨x, h1, h2, h3⟩)
        · exact .inl h
        · exact .inr ⟨x, by omega, h2, h3⟩
      · rintro (h | ⟨x, h1, h2, h3⟩)
        · exact .inl h
        · rcases Nat.lt_or_ge (columnOffset x0 x) m with h4 | h4
          · exact .inr ⟨x, h4, h2, h3⟩
          · rw [show columnOffset x0 x = m by omega] at h2
            exact absurd h2 hb

theorem drawRow_eq (msbLeft : Bool) (x0 py : Nat) (row : Byte) (cv : Canvas) :
    drawRow msbLeft x0 py row cv = drawBits msbLeft x0 py row cv 8 := rfl

/-- The sprite bit that rows from row offset `r` on put on the pixel at column `x` and row `y`. -/
def spriteCovers (msbLeft : Bool) (x0 y0 r : Nat) (rows : List Byte) (x : Fin 64) (y : Fin 32) : Bool :=
  decide (r ≤ rowOffset y0 y) && (decide (rowOffset y0 y < r + rows.length) && (decide (columnOffset x0 x < 8) &&
    spriteBit msbLeft (rows.getD (rowOffset y0 y - r) 0#8) (columnOffset x0 x)))

theorem rowOffset_eq_iff {y0 r : Nat} (hy0 : y0 < 32) (hr : r < 32) (y : Fin 32) :
    rowOffset y0 y = r ↔ y.val = (y0 + r) % 32 := by
  simp only [rowOffset]; omega

theorem spriteCovers_cons (msbLeft : Bool) {x0 y0 r : Nat} (hy0 : y0 < 32) (row : Byte) (rows : List Byte)
    (hr : r + (row :: rows).length ≤ 32) (x : Fin 64) (y : Fin 32) :
    spriteCovers msbLeft x0 y0 r (row :: rows) x y =
      if y.val = (y0 + r) % 32 then decide (columnOffset x0 x < 8) && spriteBit msbLeft row (columnOffset x0 x)
      else spriteCovers msbLeft x0 y0 (r + 1) rows x y := by
  simp only [List.length_cons] at hr
  have hc := rowOffset_eq_iff hy0 (show r < 32 by omega) y
  split
  · next h => simp [spriteCovers, hc.2 h]
  · next h =>
    have hne : rowOffset y0 y ≠ r := fun e => h (hc.1 e)
    simp only [spriteCovers, List.length_cons]
    rcases Nat.lt_or_ge (rowOffset y0 y) r with hl | hl
    · rw [decide_eq_false (show ¬ r ≤ rowOffset y0 y by omega), decide_eq_false (show ¬ r + 1 ≤ rowOffset y0 y by omega)]
      rfl
    · rw [decide_eq_true hl, decide_eq_true (show r + 1 ≤ rowOffset y0 y by omega),
        show rowOffset y0 y - r = (rowOffset y0 y - (r + 1)) + 1 by omega, List.getD_cons_succ,
        decide_eq_decide.2 (show rowOffset y0 y < r + (rows.length + 1) ↔ rowOffset y0 y < r + 1 + rows.length by omega)]

/-- Drawing XORs each pixel with the sprite bit that falls on it, and changes no other pixel (R212). -/
theorem pixel_drawRows (msbLeft : Bool) {x0 y0 : Nat} (hx0 : x0 < 64) (hy0 : y0 < 32) (r : Nat) (rows : List Byte)
    (hr : r + rows.length ≤ 32) (cv : Canvas) (x : Fin 64) (y : Fin 32) :
    Canvas.pixel (drawRows msbLeft x0 y0 r rows cv) x y = (cv.pixel x y ^^ spriteCovers msbLeft x0 y0 r rows x y) := by
  induction rows generalizing r cv with
  | nil =>
    have : spriteCovers msbLeft x0 y0 r [] x y = false := by
      by_cases h : r ≤ rowOffset y0 y <;> simp [spriteCovers, h]
    simp [drawRows, this]
  | cons row rows ih =>
    have hlt : (y0 + r) % 32 < 32 := Nat.mod_lt _ (by omega)
    rw [drawRows, ih (r + 1) (by simp at hr; omega), drawRow_eq,
      pixel_drawBits msbLeft hx0 ⟨(y0 + r) % 32, hlt⟩ row cv 8 (Nat.le_refl _), spriteCovers_cons msbLeft hy0 row rows hr]
    by_cases hy : y.val = (y0 + r) % 32
    · have hlen : rows.length < 32 := by simp at hr; omega
      have hz : spriteCovers msbLeft x0 y0 (r + 1) rows x y = false := by
        have : rowOffset y0 y = r := (rowOffset_eq_iff hy0 (by simp at hr; omega) y).2 hy
        simp [spriteCovers, this]
      rw [if_pos hy, hz, decide_eq_true (show y = ⟨(y0 + r) % 32, hlt⟩ from Fin.ext hy)]
      simp
    · rw [if_neg hy, decide_eq_false (show ¬ y = ⟨(y0 + r) % 32, hlt⟩ from fun e => hy (congrArg Fin.val e))]
      simp

/-- A collision is a pixel that was 1 under a sprite bit that is 1 (R212). -/
theorem collision_drawRows (msbLeft : Bool) {x0 y0 : Nat} (hx0 : x0 < 64) (hy0 : y0 < 32) (r : Nat) (rows : List Byte)
    (hr : r + rows.length ≤ 32) (cv : Canvas) :
    (drawRows msbLeft x0 y0 r rows cv).2 = true ↔
      cv.2 = true ∨ ∃ x y, spriteCovers msbLeft x0 y0 r rows x y = true ∧ cv.pixel x y = true := by
  induction rows generalizing r cv with
  | nil => simp [drawRows, spriteCovers]; omega
  | cons row rows ih =>
    have hlt : (y0 + r) % 32 < 32 := Nat.mod_lt _ (by omega)
    have hr' : r + 1 + rows.length ≤ 32 := by simp at hr; omega
    have hcov := fun x y => spriteCovers_cons (x0 := x0) msbLeft hy0 row rows hr x y
    rw [drawRows, ih (r + 1) hr', drawRow_eq, collision_drawBits msbLeft hx0 ⟨(y0 + r) % 32, hlt⟩ row cv 8 (Nat.le_refl _)]
    have hoff : ∀ x y, spriteCovers msbLeft x0 y0 (r + 1) rows x y = true → y.val ≠ (y0 + r) % 32 := by
      intro x y h e
      have : rowOffset y0 y = r := (rowOffset_eq_iff hy0 (by omega) y).2 e
      simp [spriteCovers, this] at h
    constructor
    · rintro ((h | ⟨x, h1, h2, h3⟩) | ⟨x, y, h1, h2⟩)
      · exact .inl h
      · exact .inr ⟨x, ⟨(y0 + r) % 32, hlt⟩, by rw [hcov, if_pos rfl, decide_eq_true h1, h2]; rfl, h3⟩
      · refine .inr ⟨x, y, by rw [hcov, if_neg (hoff x y h1)]; exact h1, ?_⟩
        have hy : ¬ y = ⟨(y0 + r) % 32, hlt⟩ := fun e => hoff x y h1 (congrArg Fin.val e)
        rw [pixel_drawBits msbLeft hx0 ⟨(y0 + r) % 32, hlt⟩ row cv 8 (Nat.le_refl _)] at h2
        simpa [hy] using h2
    · rintro (h | ⟨x, y, h1, h2⟩)
      · exact .inl (.inl h)
      · by_cases hy : y.val = (y0 + r) % 32
        · have hy' : y = ⟨(y0 + r) % 32, hlt⟩ := Fin.ext hy
          rw [hcov, if_pos hy, Bool.and_eq_true, decide_eq_true_eq] at h1
          exact .inl (.inr ⟨x, h1.1, h1.2, hy' ▸ h2⟩)
        · rw [hcov, if_neg hy] at h1
          refine .inr ⟨x, y, h1, ?_⟩
          have hy' : ¬ y = ⟨(y0 + r) % 32, hlt⟩ := fun e => hy (congrArg Fin.val e)
          rw [pixel_drawBits msbLeft hx0 ⟨(y0 + r) % 32, hlt⟩ row cv 8 (Nat.le_refl _)]
          simpa [hy'] using h2

/-- The rows at `I` cover a pixel exactly when a set bit of the sprite falls on it. -/
theorem spriteCovers_iff (s : State) (x y : Reg) {n : Nat} (hn : n < 32) (px : Fin 64) (py : Fin 32) :
    spriteCovers Config.spriteMsbLeft (startColumn (s.reg x)) (startRow (s.reg y)) 0 (s.loadIndexed n) px py = true ↔
      SpriteSets s x y n px py := by
  have h1 : startColumn (s.reg x) < 64 := Nat.mod_lt _ (by decide)
  have h2 : startRow (s.reg y) < 32 := Nat.mod_lt _ (by decide)
  have hlen : (s.loadIndexed n).length = n := by simp [State.loadIndexed]
  have hget : ∀ r c, r < n → spriteBit Config.spriteMsbLeft ((s.loadIndexed n).getD r 0#8) c =
      (s.mem.read (s.ea r)).getLsbD (7 - c) := by
    intro r c hr
    rw [List.getD_eq_getElem _ _ (by omega)]
    simp [State.loadIndexed, State.ea, spriteBit, Config.spriteMsbLeft, Config.addrPolicy]
  simp only [spriteCovers, Bool.and_eq_true, decide_eq_true_eq, Nat.zero_add, Nat.sub_zero, hlen, Nat.zero_le, true_and]
  constructor
  · rintro ⟨h3, h4, h5⟩
    refine ⟨rowOffset (startRow (s.reg y)) py, columnOffset (startColumn (s.reg x)) px, h3, h4, ?_, ?_, ?_⟩
    · rw [← hget _ _ h3]; exact h5
    · exact (columnOffset_eq_iff h1 (by omega) px).1 rfl
    · exact (rowOffset_eq_iff h2 (by omega) py).1 rfl
  · rintro ⟨r, c, hr, hc, hb, hx, hy⟩
    have e1 : rowOffset (startRow (s.reg y)) py = r := (rowOffset_eq_iff h2 (by omega) py).2 hy
    have e2 : columnOffset (startColumn (s.reg x)) px = c := (columnOffset_eq_iff h1 (by omega) px).2 hx
    simp only [e1, e2]
    exact ⟨hr, hc, (hget _ _ hr).trans hb⟩

/-- Drawing a sprite inverts exactly the pixels its set bits fall on (R212). -/
theorem State.pixel_drawSprite (s : State) (x y : Reg) {n : Nat} (hn : n < 32) (px : Fin 64) (py : Fin 32)
    (c : Bool) (hc : c = true ↔ SpriteSets s x y n px py) :
    Canvas.pixel (s.drawSprite x y n) px py = (s.pixel px py ^^ c) := by
  have h1 : startColumn (s.reg x) < 64 := Nat.mod_lt _ (by decide)
  have h2 : startRow (s.reg y) < 32 := Nat.mod_lt _ (by decide)
  refine (pixel_drawRows _ h1 h2 0 (s.loadIndexed n) (by simp [State.loadIndexed]; omega) (s.fb, false) px py).trans ?_
  rw [Bool.eq_iff_iff.2 ((spriteCovers_iff s x y hn px py).trans hc.symm)]
  rfl

/-- A collision is seen exactly when some inverted pixel was 1 (R212). -/
theorem State.collision_drawSprite (s : State) (x y : Reg) {n : Nat} (hn : n < 32) :
    (s.drawSprite x y n).2 = true ↔ ∃ px py, SpriteSets s x y n px py ∧ s.pixel px py = true := by
  have h1 : startColumn (s.reg x) < 64 := Nat.mod_lt _ (by decide)
  have h2 : startRow (s.reg y) < 32 := Nat.mod_lt _ (by decide)
  refine (collision_drawRows _ h1 h2 0 (s.loadIndexed n) (by simp [State.loadIndexed]; omega) (s.fb, false)).trans ?_
  simp only [Bool.false_eq_true, false_or]
  exact exists_congr fun px => exists_congr fun py => and_congr_left fun _ => spriteCovers_iff s x y hn px py

end Sys2Proof.Machine
end

