-- ==== Sys2Proof/Laws/PerInstr.lean ====
section
/-! SUPPORT. Statements made per instruction. `EncodedInMap`: the word the encoder builds is selected by a row of the opcode
map (30_encoding.md R94), and the fields that row reads from it are the instruction's operands. -/

namespace Sys2Proof.Laws

/-- Some row of the opcode map selects the instruction's word and reads the instruction back from it. -/
def EncodedInMap.Statement (i : Instr) : Prop := ∃ r ∈ opcodeMap, r.selects (encode i) ∧ r.instr (encode i) = i

theorem rowsFlow_sub : ∀ q ∈ rowsFlow, q ∈ opcodeMap := fun q h => by simp [opcodeMap, h]
theorem rowsAlu_sub : ∀ q ∈ rowsAlu, q ∈ opcodeMap := fun q h => by simp [opcodeMap, h]
theorem rowsMiddle_sub : ∀ q ∈ rowsMiddle, q ∈ opcodeMap := fun q h => by simp [opcodeMap, h]
theorem rowsF_sub : ∀ q ∈ rowsF, q ∈ opcodeMap := fun q h => by simp [opcodeMap, h]

/-- The row at a place in a part of the map stands for an instruction. -/
theorem encodedInMap_of_row {i : Instr} {part : List Row} (hp : ∀ q ∈ part, q ∈ opcodeMap) (j : Nat) (hj : j < part.length)
    (hs : part[j].selects (encode i)) (hi : part[j].instr (encode i) = i) : EncodedInMap.Statement i :=
  ⟨part[j], hp _ (List.getElem_mem hj), hs, hi⟩

theorem EncodedInMap.cls : EncodedInMap.Statement .cls :=
  encodedInMap_of_row rowsFlow_sub 0 (by decide)
    (by simp [rowsFlow, encode, Row.selects]) (by simp [rowsFlow, encode])

theorem EncodedInMap.ret : EncodedInMap.Statement .ret :=
  encodedInMap_of_row rowsFlow_sub 1 (by decide)
    (by simp [rowsFlow, encode, Row.selects]) (by simp [rowsFlow, encode])

theorem EncodedInMap.jp (nnn : BitVec 12) : EncodedInMap.Statement (.jp nnn) :=
  encodedInMap_of_row rowsFlow_sub 2 (by decide)
    ((and_F000_iff _ 0x1#4).2 (opField_formatNNN ..)) (by simp [rowsFlow, encode])

theorem EncodedInMap.call (nnn : BitVec 12) : EncodedInMap.Statement (.call nnn) :=
  encodedInMap_of_row rowsFlow_sub 3 (by decide)
    ((and_F000_iff _ 0x2#4).2 (opField_formatNNN ..)) (by simp [rowsFlow, encode])

theorem EncodedInMap.seImm (x : Reg) (nn : Byte) : EncodedInMap.Statement (.seImm x nn) :=
  encodedInMap_of_row rowsFlow_sub 4 (by decide)
    ((and_F000_iff _ 0x3#4).2 (opField_formatXNN ..)) (by simp [rowsFlow, encode])

theorem EncodedInMap.sneImm (x : Reg) (nn : Byte) : EncodedInMap.Statement (.sneImm x nn) :=
  encodedInMap_of_row rowsFlow_sub 5 (by decide)
    ((and_F000_iff _ 0x4#4).2 (opField_formatXNN ..)) (by simp [rowsFlow, encode])

theorem EncodedInMap.seReg (x y : Reg) : EncodedInMap.Statement (.seReg x y) :=
  encodedInMap_of_row rowsFlow_sub 6 (by decide)
    ((and_F00F_iff _ 0x5#4 0x0#4).2 ⟨opField_formatXYN .., nField_formatXYN ..⟩) (by simp [rowsFlow, encode])

theorem EncodedInMap.ldImm (x : Reg) (nn : Byte) : EncodedInMap.Statement (.ldImm x nn) :=
  encodedInMap_of_row rowsFlow_sub 7 (by decide)
    ((and_F000_iff _ 0x6#4).2 (opField_formatXNN ..)) (by simp [rowsFlow, encode])

theorem EncodedInMap.addImm (x : Reg) (nn : Byte) : EncodedInMap.Statement (.addImm x nn) :=
  encodedInMap_of_row rowsFlow_sub 8 (by decide)
    ((and_F000_iff _ 0x7#4).2 (opField_formatXNN ..)) (by simp [rowsFlow, encode])

theorem EncodedInMap.ldReg (x y : Reg) : EncodedInMap.Statement (.ldReg x y) :=
  encodedInMap_of_row rowsAlu_sub 0 (by decide)
    ((and_F00F_iff _ 0x8#4 0x0#4).2 ⟨opField_formatXYN .., nField_formatXYN ..⟩) (by simp [rowsAlu, encode])

theorem EncodedInMap.orReg (x y : Reg) : EncodedInMap.Statement (.orReg x y) :=
  encodedInMap_of_row rowsAlu_sub 1 (by decide)
    ((and_F00F_iff _ 0x8#4 0x1#4).2 ⟨opField_formatXYN .., nField_formatXYN ..⟩) (by simp [rowsAlu, encode])

theorem EncodedInMap.andReg (x y : Reg) : EncodedInMap.Statement (.andReg x y) :=
  encodedInMap_of_row rowsAlu_sub 2 (by decide)
    ((and_F00F_iff _ 0x8#4 0x2#4).2 ⟨opField_formatXYN .., nField_formatXYN ..⟩) (by simp [rowsAlu, encode])

theorem EncodedInMap.xorReg (x y : Reg) : EncodedInMap.Statement (.xorReg x y) :=
  encodedInMap_of_row rowsAlu_sub 3 (by decide)
    ((and_F00F_iff _ 0x8#4 0x3#4).2 ⟨opField_formatXYN .., nField_formatXYN ..⟩) (by simp [rowsAlu, encode])

theorem EncodedInMap.addReg (x y : Reg) : EncodedInMap.Statement (.addReg x y) :=
  encodedInMap_of_row rowsAlu_sub 4 (by decide)
    ((and_F00F_iff _ 0x8#4 0x4#4).2 ⟨opField_formatXYN .., nField_formatXYN ..⟩) (by simp [rowsAlu, encode])

theorem EncodedInMap.subReg (x y : Reg) : EncodedInMap.Statement (.subReg x y) :=
  encodedInMap_of_row rowsAlu_sub 5 (by decide)
    ((and_F00F_iff _ 0x8#4 0x5#4).2 ⟨opField_formatXYN .., nField_formatXYN ..⟩) (by simp [rowsAlu, encode])

theorem EncodedInMap.shr (x y : Reg) : EncodedInMap.Statement (.shr x y) :=
  encodedInMap_of_row rowsAlu_sub 6 (by decide)
    ((and_F00F_iff _ 0x8#4 0x6#4).2 ⟨opField_formatXYN .., nField_formatXYN ..⟩) (by simp [rowsAlu, encode])

theorem EncodedInMap.subn (x y : Reg) : EncodedInMap.Statement (.subn x y) :=
  encodedInMap_of_row rowsAlu_sub 7 (by decide)
    ((and_F00F_iff _ 0x8#4 0x7#4).2 ⟨opField_formatXYN .., nField_formatXYN ..⟩) (by simp [rowsAlu, encode])

theorem EncodedInMap.shl (x y : Reg) : EncodedInMap.Statement (.shl x y) :=
  encodedInMap_of_row rowsAlu_sub 8 (by decide)
    ((and_F00F_iff _ 0x8#4 0xE#4).2 ⟨opField_formatXYN .., nField_formatXYN ..⟩) (by simp [rowsAlu, encode])

theorem EncodedInMap.sneReg (x y : Reg) : EncodedInMap.Statement (.sneReg x y) :=
  encodedInMap_of_row rowsMiddle_sub 0 (by decide)
    ((and_F00F_iff _ 0x9#4 0x0#4).2 ⟨opField_formatXYN .., nField_formatXYN ..⟩) (by simp [rowsMiddle, encode])

theorem EncodedInMap.ldI (nnn : BitVec 12) : EncodedInMap.Statement (.ldI nnn) :=
  encodedInMap_of_row rowsMiddle_sub 1 (by decide)
    ((and_F000_iff _ 0xA#4).2 (opField_formatNNN ..)) (by simp [rowsMiddle, encode])

theorem EncodedInMap.jpV0 (nnn : BitVec 12) : EncodedInMap.Statement (.jpV0 nnn) :=
  encodedInMap_of_row rowsMiddle_sub 2 (by decide)
    ((and_F000_iff _ 0xB#4).2 (opField_formatNNN ..)) (by simp [rowsMiddle, encode])

theorem EncodedInMap.rnd (x : Reg) (nn : Byte) : EncodedInMap.Statement (.rnd x nn) :=
  encodedInMap_of_row rowsMiddle_sub 3 (by decide)
    ((and_F000_iff _ 0xC#4).2 (opField_formatXNN ..)) (by simp [rowsMiddle, encode])

theorem EncodedInMap.drw (x y : Reg) (n : Fin 16) : EncodedInMap.Statement (.drw x y n) :=
  encodedInMap_of_row rowsMiddle_sub 4 (by decide)
    ((and_F000_iff _ 0xD#4).2 (opField_formatXYN ..)) (by simp [rowsMiddle, encode, nField_formatXYN, regBits_toFin])

theorem EncodedInMap.skp (x : Reg) : EncodedInMap.Statement (.skp x) :=
  encodedInMap_of_row rowsMiddle_sub 5 (by decide)
    ((and_F0FF_iff _ 0xE#4 0x9E#8).2 ⟨opField_formatXNN .., nnField_formatXNN ..⟩) (by simp [rowsMiddle, encode])

theorem EncodedInMap.sknp (x : Reg) : EncodedInMap.Statement (.sknp x) :=
  encodedInMap_of_row rowsMiddle_sub 6 (by decide)
    ((and_F0FF_iff _ 0xE#4 0xA1#8).2 ⟨opField_formatXNN .., nnField_formatXNN ..⟩) (by simp [rowsMiddle, encode])

theorem EncodedInMap.ldFromDt (x : Reg) : EncodedInMap.Statement (.ldFromDt x) :=
  encodedInMap_of_row rowsF_sub 0 (by decide)
    ((and_F0FF_iff _ 0xF#4 0x07#8).2 ⟨opField_formatXNN .., nnField_formatXNN ..⟩) (by simp [rowsF, encode])

theorem EncodedInMap.waitKey (x : Reg) : EncodedInMap.Statement (.waitKey x) :=
  encodedInMap_of_row rowsF_sub 1 (by decide)
    ((and_F0FF_iff _ 0xF#4 0x0A#8).2 ⟨opField_formatXNN .., nnField_formatXNN ..⟩) (by simp [rowsF, encode])

theorem EncodedInMap.ldDt (x : Reg) : EncodedInMap.Statement (.ldDt x) :=
  encodedInMap_of_row rowsF_sub 2 (by decide)
    ((and_F0FF_iff _ 0xF#4 0x15#8).2 ⟨opField_formatXNN .., nnField_formatXNN ..⟩) (by simp [rowsF, encode])

theorem EncodedInMap.ldSt (x : Reg) : EncodedInMap.Statement (.ldSt x) :=
  encodedInMap_of_row rowsF_sub 3 (by decide)
    ((and_F0FF_iff _ 0xF#4 0x18#8).2 ⟨opField_formatXNN .., nnField_formatXNN ..⟩) (by simp [rowsF, encode])

theorem EncodedInMap.addI (x : Reg) : EncodedInMap.Statement (.addI x) :=
  encodedInMap_of_row rowsF_sub 4 (by decide)
    ((and_F0FF_iff _ 0xF#4 0x1E#8).2 ⟨opField_formatXNN .., nnField_formatXNN ..⟩) (by simp [rowsF, encode])

theorem EncodedInMap.ldFont (x : Reg) : EncodedInMap.Statement (.ldFont x) :=
  encodedInMap_of_row rowsF_sub 5 (by decide)
    ((and_F0FF_iff _ 0xF#4 0x29#8).2 ⟨opField_formatXNN .., nnField_formatXNN ..⟩) (by simp [rowsF, encode])

theorem EncodedInMap.stBcd (x : Reg) : EncodedInMap.Statement (.stBcd x) :=
  encodedInMap_of_row rowsF_sub 6 (by decide)
    ((and_F0FF_iff _ 0xF#4 0x33#8).2 ⟨opField_formatXNN .., nnField_formatXNN ..⟩) (by simp [rowsF, encode])

theorem EncodedInMap.stRegs (x : Reg) : EncodedInMap.Statement (.stRegs x) :=
  encodedInMap_of_row rowsF_sub 7 (by decide)
    ((and_F0FF_iff _ 0xF#4 0x55#8).2 ⟨opField_formatXNN .., nnField_formatXNN ..⟩) (by simp [rowsF, encode])

theorem EncodedInMap.ldRegs (x : Reg) : EncodedInMap.Statement (.ldRegs x) :=
  encodedInMap_of_row rowsF_sub 8 (by decide)
    ((and_F0FF_iff _ 0xF#4 0x65#8).2 ⟨opField_formatXNN .., nnField_formatXNN ..⟩) (by simp [rowsF, encode])

end Sys2Proof.Laws
end

