-- ==== Sys2Proof/Tests/Slice0.lean ====
section
/-! SUPPORT. The model's own tests. Expected results are the vectors of spec/95_test_vectors.md, named by their ids, and the
encodings of 30_encoding.md R94 written out; then, for every obligation with hypotheses, a state and operands that meet
them. -/

namespace Sys2Proof.Tests

open Sys2Proof Sys2Proof.Machine

/-! ## Helpers -/

/-- The launch state of R289 with an empty program. -/
def launch : State := { State.reset with rs := .running }

def withRegs (l : List (Reg × Byte)) (s : State) : State := l.foldl (fun t p => t.setReg p.1 p.2) s

def withMem (l : List (Nat × Byte)) (s : State) : State := { s with mem := l.foldl (fun m p => m.write p.1 p.2) s.mem }

/-- The state one step leads to. -/
def after (s : State) : State :=
  match step s with
  | .next t => t
  | .fault _ => s
  | .refused _ => s

/-- One step of an opcode at `PC`. -/
def go (w : Nat) (s : State) : State := after (s.withFetchWord 16 w)

/-- The state an instruction leads to. -/
def ran (i : Instr) (s : State) : State :=
  match exec i s with
  | .next t => t
  | .fault _ => s
  | .refused _ => s

/-- One step that takes an event. -/
def event (e : HostEvent) (s : State) : State := after { s with inbox := [e] }

/-- `RS`, `FC`, `FI`, `FPC` and `PC`. -/
def faultView (s : State) : RunState × FaultCode × Nat × Nat × Nat :=
  (s.rs, s.fc, s.fi.toNat, s.fpc.toNat, s.pc.toNat)

def regsView (l : List Reg) (s : State) : List Nat := l.map fun x => (s.reg x).toNat

def bytesView (a n : Nat) (s : State) : List Nat := (List.range n).map fun j => (s.mem.read (a + j)).toNat

/-- A program image of a length. -/
def image (n : Nat) : List Byte := List.replicate n 1#8

theorem length_image (n : Nat) : (image n).length = n := List.length_replicate

/-! ## Well-formedness -/

theorem test_image_of_3584_bytes_fits :
    imageFits (image 3584) = true := by
  rw [imageFits, length_image]
  decide

/-- S10: the ill-formed image. -/
theorem test_image_of_3585_bytes_refused :
    imageFits (image 3585) = false := by
  rw [imageFits, length_image]
  decide

theorem test_font_is_well_formed :
    (fontHasGlyphs Config.font && fontLowBitsClear Config.font) = true := by decide

theorem test_font_of_wrong_length_refused :
    fontHasGlyphs (Config.font ++ [0xF0#8]) = false := by decide

theorem test_font_with_low_bits_refused :
    fontLowBitsClear [0xF0#8, 0x91#8] = false := by decide

/-! ## Decoding: one word of every row of R94, written out bit by bit -/

theorem test_decode_cls : decode 0b0000000011100000#16 = .ok (.cls) := by decide
theorem test_decode_ret : decode 0b0000000011101110#16 = .ok (.ret) := by decide
theorem test_decode_jp : decode 0b0001101001011100#16 = .ok (.jp 0xA5C#12) := by decide
theorem test_decode_call : decode 0b0010001111000101#16 = .ok (.call 0x3C5#12) := by decide
theorem test_decode_seImm : decode 0b0011101001000010#16 = .ok (.seImm 10 0x42#8) := by decide
theorem test_decode_sneImm : decode 0b0100010110000001#16 = .ok (.sneImm 5 0x81#8) := by decide
theorem test_decode_seReg : decode 0b0101001111000000#16 = .ok (.seReg 3 12) := by decide
theorem test_decode_ldImm : decode 0b0110111101111110#16 = .ok (.ldImm 15 0x7E#8) := by decide
theorem test_decode_addImm : decode 0b0111011011110001#16 = .ok (.addImm 6 0xF1#8) := by decide
theorem test_decode_ldReg : decode 0b1000000111100000#16 = .ok (.ldReg 1 14) := by decide
theorem test_decode_orReg : decode 0b1000001011010001#16 = .ok (.orReg 2 13) := by decide
theorem test_decode_andReg : decode 0b1000001111000010#16 = .ok (.andReg 3 12) := by decide
theorem test_decode_xorReg : decode 0b1000010010110011#16 = .ok (.xorReg 4 11) := by decide
theorem test_decode_addReg : decode 0b1000010110100100#16 = .ok (.addReg 5 10) := by decide
theorem test_decode_subReg : decode 0b1000011010010101#16 = .ok (.subReg 6 9) := by decide
theorem test_decode_shr : decode 0b1000011110000110#16 = .ok (.shr 7 8) := by decide
theorem test_decode_subn : decode 0b1000100001110111#16 = .ok (.subn 8 7) := by decide
theorem test_decode_shl : decode 0b1000100101101110#16 = .ok (.shl 9 6) := by decide
theorem test_decode_sneReg : decode 0b1001101001010000#16 = .ok (.sneReg 10 5) := by decide
theorem test_decode_ldI : decode 0b1010100001110001#16 = .ok (.ldI 0x871#12) := by decide
theorem test_decode_jpV0 : decode 0b1011011100011000#16 = .ok (.jpV0 0x718#12) := by decide
theorem test_decode_rnd : decode 0b1100101100001111#16 = .ok (.rnd 11 0x0F#8) := by decide
theorem test_decode_drw : decode 0b1101001010110101#16 = .ok (.drw 2 11 5) := by decide
theorem test_decode_skp : decode 0b1110110010011110#16 = .ok (.skp 12) := by decide
theorem test_decode_sknp : decode 0b1110001110100001#16 = .ok (.sknp 3) := by decide
theorem test_decode_ldFromDt : decode 0b1111010100000111#16 = .ok (.ldFromDt 5) := by decide
theorem test_decode_waitKey : decode 0b1111100100001010#16 = .ok (.waitKey 9) := by decide
theorem test_decode_ldDt : decode 0b1111001000010101#16 = .ok (.ldDt 2) := by decide
theorem test_decode_ldSt : decode 0b1111001100011000#16 = .ok (.ldSt 3) := by decide
theorem test_decode_addI : decode 0b1111010000011110#16 = .ok (.addI 4) := by decide
theorem test_decode_ldFont : decode 0b1111101000101001#16 = .ok (.ldFont 10) := by decide
theorem test_decode_stBcd : decode 0b1111110100110011#16 = .ok (.stBcd 13) := by decide
theorem test_decode_stRegs : decode 0b1111111001010101#16 = .ok (.stRegs 14) := by decide
theorem test_decode_ldRegs : decode 0b1111000101100101#16 = .ok (.ldRegs 1) := by decide

/-- T-UNK-1 to T-UNK-4. -/
theorem test_unknown_words_rejected :
    ([0x0000#16, 0x0123#16, 0x00E1#16, 0x5011#16, 0x8018#16, 0x801F#16, 0x9017#16, 0xE000#16, 0xF000#16, 0xF075#16].map
      fun w => (decode w).toOption) = List.replicate 10 none := by decide

theorem test_truncated_bytes_rejected :
    decodeBytes [0x12#8] = .error .truncated := by decide

theorem test_encode_xyn :
    encode (.drw 2 11 5) = 0b1101001010110101#16 := by decide

theorem test_encode_bytes_high_first :
    encodeBytes (.jp 0x234#12) = [0x12#8, 0x34#8] := by decide

theorem test_table_word :
    decodeTableWord 16 0x8126 = some (.shr 1 2) ∧ decodeTableWord 16 0x5011 = none := by decide

/-! ## Load-immediate, ALU, shift and random (vectors S1, S11, S12 and A) -/

/-- A-IMM. -/
theorem test_ldImm :
    regsView [10] (go 0x6A7F launch) = [0x7F] := by decide

/-- S1. -/
theorem test_addImm_wraps :
    regsView [0, 15] (go 0x7002 (withRegs [(0, 0xFF#8), (15, 0x5A#8)] launch)) = [0x01, 0x5A] := by decide

/-- A-IMM: an ordinary wrap of the destination. -/
theorem test_addImm_vf :
    regsView [15] (go 0x7F02 (withRegs [(15, 0xFF#8)] launch)) = [0x01] := by decide

theorem test_ldReg :
    regsView [0, 15] (go 0x8010 (withRegs [(1, 0x9C#8), (15, 0x77#8)] launch)) = [0x9C, 0x77] := by decide

theorem test_orReg :
    regsView [0, 15] (go 0x8011 (withRegs [(0, 0xA0#8), (1, 0x0A#8), (15, 0x77#8)] launch)) = [0xAA, 0x77] := by decide

theorem test_andReg :
    regsView [0, 15] (go 0x8012 (withRegs [(0, 0xAC#8), (1, 0xCA#8), (15, 0x77#8)] launch)) = [0x88, 0x77] := by decide

theorem test_xorReg :
    regsView [0, 15] (go 0x8013 (withRegs [(0, 0xAC#8), (1, 0xCA#8), (15, 0x77#8)] launch)) = [0x66, 0x77] := by decide

/-- S11. -/
theorem test_addReg_carry :
    regsView [0, 1, 15] (go 0x8014 (withRegs [(0, 0xFF#8), (1, 0x01#8)] launch)) = [0x00, 0x01, 0x01] := by decide

/-- A-ADD, aliasing: the flag is written last. -/
theorem test_addReg_into_vf :
    regsView [1, 15] (go 0x8F14 (withRegs [(15, 0x10#8), (1, 0x02#8)] launch)) = [0x02, 0x00] := by decide

/-- S12. -/
theorem test_subReg_borrow :
    regsView [0, 15] (go 0x8015 (withRegs [(0, 0x00#8), (1, 0x01#8)] launch)) = [0xFF, 0x00] := by decide

/-- A-SUB, aliasing: the operand is the old V[15]. -/
theorem test_subReg_from_vf :
    regsView [0, 15] (go 0x80F5 (withRegs [(0, 0x05#8), (15, 0x01#8)] launch)) = [0x04, 0x01] := by decide

theorem test_subn_no_borrow :
    regsView [0, 15] (go 0x8017 (withRegs [(0, 0x10#8), (1, 0x20#8)] launch)) = [0x10, 0x01] := by decide

theorem test_subn_aliasing :
    regsView [0, 15] (go 0x80F7 (withRegs [(0, 0x05#8), (15, 0x01#8)] launch)) = [0xFC, 0x00] := by decide

theorem test_shr :
    regsView [0, 1, 15] (go 0x8016 (withRegs [(0, 0x55#8), (1, 0xAA#8)] launch)) = [0x2A, 0xAA, 0x01] := by decide

theorem test_shr_vf :
    regsView [15] (go 0x8F16 (withRegs [(15, 0x02#8)] launch)) = [0x00] := by decide

theorem test_shl :
    regsView [0, 1, 15] (go 0x801E (withRegs [(0, 0xAA#8), (1, 0x55#8)] launch)) = [0x54, 0x55, 0x01] := by decide

theorem test_shl_vf :
    regsView [15] (go 0x8F1E (withRegs [(15, 0x7F#8)] launch)) = [0x00] := by decide

/-- A-SHIFT-VY. -/
theorem test_shift_source_vy :
    regsView [0, 1, 15] ((withRegs [(1, 0xAB#8)] launch).shiftRight .vy 0 1) = [0x55, 0xAB, 0x01] ∧
    regsView [0, 1, 15] ((withRegs [(1, 0xAB#8)] launch).shiftLeft .vy 0 1) = [0x56, 0xAB, 0x01] := by decide

/-- A-RND. -/
theorem test_rnd_masks :
    regsView [3] (launch.randomAnd 0xA5#8 3 0xF0#8) = [0xA0] := by decide

/-- A-RND. -/
theorem test_rnd_zero_mask :
    regsView [3] (launch.randomAnd 0xFF#8 3 0x00#8) = [0x00] := by decide

/-! ## Control flow (vectors S13, S15 and B) -/

theorem test_jp :
    (go 0x1234 launch).pc = 0x234#16 := by decide

/-- T-JP-3. -/
theorem test_jp_then_fetch_fault :
    faultView (after (go 0x1FFF launch)) = (.faulted, .fetchRange, 0xFFF, 0xFFF, 0xFFF) := by decide

theorem test_jpV0 :
    (go 0xB300 (withRegs [(0, 0x10#8)] launch)).pc = 0x310#16 := by decide

/-- T-JPV0-2. -/
theorem test_jpV0_not_masked :
    (go 0xBFFF (withRegs [(0, 0xFF#8)] launch)).pc = 0x10FE#16 := by decide

theorem test_call :
    (go 0x2300 launch).stack.get 0 = 0x200#16 ∧ (go 0x2300 launch).sp = 1 ∧ (go 0x2300 launch).pc = 0x300#16 := by decide

/-- T-CALL-2, its last step. -/
theorem test_call_overflow :
    faultView (go 0x2200 { launch with sp := 16 }) = (.faulted, .stackOverflow, 16, 0x200, 0x200) := by decide

/-- T-RET-1. -/
theorem test_ret :
    (go 0x00EE { launch with sp := 1, stack := launch.stack.set 0 0x204#16 }).pc = 0x206#16 ∧
    (go 0x00EE { launch with sp := 1, stack := launch.stack.set 0 0x204#16 }).sp = 0 := by decide

/-- T-RET-2. -/
theorem test_ret_underflow :
    faultView (go 0x00EE launch) = (.faulted, .stackUnderflow, 0, 0x200, 0x200) := by decide

theorem test_seImm_skips :
    (go 0x3042 (withRegs [(0, 0x42#8)] launch)).pc = 0x204#16 := by decide

theorem test_seImm_falls_through :
    (go 0x3042 (withRegs [(0, 0x43#8)] launch)).pc = 0x202#16 := by decide

theorem test_sneImm_falls_through :
    (go 0x4042 (withRegs [(0, 0x42#8)] launch)).pc = 0x202#16 := by decide

theorem test_sneImm_skips :
    (go 0x4042 (withRegs [(0, 0x43#8)] launch)).pc = 0x204#16 := by decide

theorem test_seReg_skips :
    (go 0x5010 (withRegs [(0, 0x01#8), (1, 0x01#8)] launch)).pc = 0x204#16 := by decide

theorem test_seReg_falls_through :
    (go 0x5010 (withRegs [(0, 0x01#8), (1, 0x02#8)] launch)).pc = 0x202#16 := by decide

theorem test_sneReg_falls_through :
    (go 0x9010 (withRegs [(0, 0x01#8), (1, 0x01#8)] launch)).pc = 0x202#16 := by decide

theorem test_sneReg_skips :
    (go 0x9010 (withRegs [(0, 0x01#8), (1, 0x02#8)] launch)).pc = 0x204#16 := by decide

/-- T-UNK-1. -/
theorem test_unknown :
    (go 0x5011 launch).pc = 0x202#16 ∧ (go 0x5011 launch).outbox = [.diagUnknown 0x200#16 0x5011#16] := by decide

/-- T-RUNOFF, its last step. -/
theorem test_runoff :
    faultView (after { launch with pc := 0x1000#16 }) = (.faulted, .fetchRange, 0x1000, 0x1000, 0x1000) := by decide

/-! ## Index register and memory (vectors S5, S6, S14 and C) -/

theorem test_ldI :
    (go 0xA2F0 launch).i = 0x2F0#16 := by decide

theorem test_addI :
    (go 0xF01E (withRegs [(0, 0x01#8)] { launch with i := 0x0FFF#16 })).i = 0x1000#16 := by decide

/-- M-ADDI-3. -/
theorem test_addI_wraps :
    (go 0xF01E (withRegs [(0, 0xFF#8)] { launch with i := 0xFF01#16 })).i = 0#16 := by decide

/-- S14. -/
theorem test_ldFont :
    (go 0xF029 (withRegs [(0, 0x09#8)] launch)).i = 0x2D#16 := by decide

theorem test_ldFont_whole_byte :
    (go 0xF029 (withRegs [(0, 0xFF#8)] launch)).i = 0x4FB#16 := by decide

/-- M-BCD-EDGE-1. -/
theorem test_stBcd_at_top :
    bytesView 0xFFD 3 (go 0xF033 (withRegs [(0, 0x7B#8)] { launch with i := 0xFFD#16 })) = [1, 2, 3] := by decide

/-- M-BCD-EDGE-2. -/
theorem test_stBcd_out_of_range :
    faultView (go 0xF033 { launch with i := 0xFFE#16 }) = (.faulted, .writeRange, 0x1000, 0x200, 0x200) := by decide

/-- M-ST-EDGE-1. -/
theorem test_stRegs_at_top :
    bytesView 0xFFC 4 (go 0xF355 (withRegs [(0, 0x10#8), (1, 0x11#8), (2, 0x12#8), (3, 0x13#8)] { launch with i := 0xFFC#16 })) = [0x10, 0x11, 0x12, 0x13] ∧
    (go 0xF355 (withRegs [(0, 0x10#8), (1, 0x11#8), (2, 0x12#8), (3, 0x13#8)] { launch with i := 0xFFC#16 })).i = 0x1000#16 := by decide

/-- M-ST-EDGE-2. -/
theorem test_stRegs_out_of_range :
    faultView (go 0xF355 (withRegs [(0, 0x10#8), (1, 0x11#8), (2, 0x12#8), (3, 0x13#8)] { launch with i := 0xFFD#16 })) =
      (.faulted, .writeRange, 0x1000, 0x200, 0x200) ∧
    bytesView 0xFFD 3 (go 0xF355 (withRegs [(0, 0x10#8), (1, 0x11#8), (2, 0x12#8), (3, 0x13#8)] { launch with i := 0xFFD#16 })) = [0, 0, 0] := by decide

/-- M-LD. -/
theorem test_ldRegs :
    regsView [0, 1, 2, 3] (go 0xF265 (withMem [(0x300, 0xA0#8), (0x301, 0xA1#8), (0x302, 0xA2#8), (0x303, 0xA3#8)] { launch with i := 0x300#16 })) = [0xA0, 0xA1, 0xA2, 0] ∧
    (go 0xF265 (withMem [(0x300, 0xA0#8), (0x301, 0xA1#8), (0x302, 0xA2#8), (0x303, 0xA3#8)] { launch with i := 0x300#16 })).i = 0x303#16 := by decide

/-- M-LD-EDGE-2. -/
theorem test_ldRegs_out_of_range :
    faultView (go 0xF365 { launch with i := 0xFFD#16 }) = (.faulted, .readRange, 0x1000, 0x200, 0x200) := by decide

/-! ## Display (vectors S4 and D) -/

/-- The sprite data of DRW-1 to DRW-4, and two registers. -/
def sprite (l : List (Reg × Byte)) : State :=
  withRegs l (withMem [(0x300, 0xFF#8), (0x301, 0x81#8)] { launch with i := 0x300#16, rd := false })

/-- DRW-2. -/
theorem test_drw_wraps_both_ways :
    (go 0xD012 (sprite [(0, 0x3C#8), (1, 0x1F#8)])).fb.get 31 = 0xF00000000000000F#64 ∧
    (go 0xD012 (sprite [(0, 0x3C#8), (1, 0x1F#8)])).fb.get 0 = 0x1000000000000008#64 ∧
    regsView [15] (go 0xD012 (sprite [(0, 0x3C#8), (1, 0x1F#8)])) = [0] := by decide

/-- DRW-4 and DRW-5: the coordinate is the old V[15], and (12,3) is cleared. -/
theorem test_drw_collision :
    (go 0xDF11 { sprite [(15, 0x0A#8), (1, 0x03#8)] with fb := launch.fb.set 3 (BitVec.twoPow 64 12) }).fb.get 3 = 0x3EC00#64 ∧ regsView [15] (go 0xDF11 { sprite [(15, 0x0A#8), (1, 0x03#8)] with fb := launch.fb.set 3 (BitVec.twoPow 64 12) }) = [1] := by decide

/-- DRW-7 and DRW-9. -/
theorem test_drw_zero_rows :
    (go 0xD010 (withRegs [(15, 0x07#8)] { launch with i := 0xFFFF#16, rd := false })).rd = true ∧
    faultView (go 0xD012 { launch with i := 0xFFF#16 }) = (.faulted, .readRange, 0x1000, 0x200, 0x200) := by decide

/-- DRW-11. -/
theorem test_cls :
    (go 0x00E0 { launch with fb := Vector.replicate 32 1#64, rd := false }).fb = State.reset.fb ∧
    (go 0x00E0 { launch with rd := false }).rd = true := by decide

/-! ## Keypad and timers (vectors E) -/

/-- KEY-1 and KEY-5. -/
theorem test_skp :
    (go 0xE09E (withRegs [(0, 5#8)] (launch.keyEvent 5 true))).pc = 0x204#16 ∧ (go 0xE09E (withRegs [(0, 15#8)] launch)).pc = 0x202#16 := by decide

/-- KEY-7. -/
theorem test_skp_key_index :
    faultView (go 0xE09E (withRegs [(0, 0xFF#8)] launch)) = (.faulted, .keyIndex, 0xFF, 0x200, 0x200) := by decide

/-- KEY-3 and KEY-4. -/
theorem test_sknp :
    (go 0xE0A1 (withRegs [(0, 5#8)] (launch.keyEvent 5 true))).pc = 0x202#16 ∧ (go 0xE0A1 (withRegs [(0, 5#8)] launch)).pc = 0x204#16 := by decide

/-- KEY-6. -/
theorem test_sknp_key_index :
    faultView (go 0xE0A1 (withRegs [(0, 0x10#8)] launch)) = (.faulted, .keyIndex, 0x10, 0x200, 0x200) := by decide

/-- KEY-8. -/
theorem test_waitKey_blocks :
    faultView (go 0xF50A launch) = (.blocked, .none, 0, 0, 0x200) := by decide

/-- KEY-9. -/
theorem test_waitKey_lowest :
    regsView [5] (go 0xF50A ((launch.keyEvent 7 true).keyEvent 3 true)) = [3] ∧ (go 0xF50A ((launch.keyEvent 7 true).keyEvent 3 true)).pc = 0x202#16 ∧ (go 0xF50A ((launch.keyEvent 7 true).keyEvent 3 true)).rs = .running := by decide

/-- TMR-1. -/
theorem test_ldFromDt :
    regsView [3] (go 0xF307 { launch with dt := 0x2C#8 }) = [0x2C] := by decide

/-- TMR-2. -/
theorem test_ldDt :
    (go 0xF315 (withRegs [(3, 0x3C#8)] launch)).dt = 0x3C#8 := by decide

/-- TMR-3. -/
theorem test_ldSt :
    (go 0xF318 (withRegs [(3, 5#8)] launch)).st = 5#8 ∧ (go 0xF318 (withRegs [(3, 5#8)] launch)).ports.soundActive = true := by decide

/-- TMR-5 and TMR-6, and no wrap below zero. -/
theorem test_tickTimers :
    (event .tickTimers { launch with dt := 0xFF#8, st := 1#8, rs := .blocked }).dt = 0xFE#8 ∧
    (event .tickTimers (event .tickTimers { launch with st := 1#8 })).st = 0#8 := by decide

/-! ## Reset, load and idle (vectors S10 and F) -/

/-- RST-1. -/
theorem test_reset_memory :
    bytesView 0 5 State.reset = [0xF0, 0x90, 0x90, 0x90, 0xF0] ∧ bytesView 0x4B 6 State.reset = [0xF0, 0x80, 0xF0, 0x80, 0x80, 0] := by decide

/-- RST-2. -/
theorem test_idle_cycle :
    after State.reset = State.reset := by decide

/-- RST-3. -/
theorem test_load :
    bytesView 0x200 3 (event (.loadProgram [0x12#8, 0x00#8]) State.reset) = [0x12, 0, 0] ∧
    (event (.loadProgram [0x12#8, 0x00#8]) State.reset).rs = .running := by decide

/-- RST-4. -/
theorem test_load_refused :
    (event (.loadProgram [0x60#8, 0x01#8]) launch).outbox = [.loadError] ∧
    bytesView 0x200 2 (event (.loadProgram [0x60#8, 0x01#8]) launch) = [0, 0] := by decide

/-- RST-5. -/
theorem test_load_too_long :
    (State.reset.loadProgram (image 3585)).outbox = [.loadError] ∧
    (State.reset.loadProgram (image 3585)).rs = .idle := by
  have h : State.reset.loadProgram (image 3585) = State.reset.loadError := by
    rw [State.loadProgram, if_neg (by decide), if_pos (by rw [imageFits, length_image]; decide)]
  rw [h]
  decide

/-- RST-6 and RST-7. -/
theorem test_reset_keeps_keys :
    faultView (event .reset (event (.keyEvent 1 true) (go 0x00EE launch))) = (.idle, .none, 0, 0, 0x200) ∧
    (event .reset (event (.keyEvent 1 true) (go 0x00EE launch))).key 1 = true ∧ (event .reset (event (.keyEvent 1 true) (go 0x00EE launch))).rd = true := by decide

theorem test_redrawAck :
    (event .redrawAck launch).rd = false ∧ launch.rd = true := by decide

/-- R264: FB[3][12] is bit 3 * 64 + 12. -/
theorem test_framebuffer_port :
    flattenRows ((launch.fb.set 3 (BitVec.twoPow 64 12)).toList) = 2 ^ 204 := by decide

theorem test_memory_canonical :
    Memory.wf (storeOpcode [] 0x200 0x1234#16) ∧ (Memory.write [(0x300, 5#8)] 0x300 0#8) = [] := by decide

/-! ## Witnesses: for every obligation with hypotheses, a state and operands that meet them -/

/-- `JP 0x234` at 4094, the last place a fetch may start. -/
def atTop : State := { launch with pc := 0xFFE#16, mem := storeOpcode [] 0xFFE 0x1234#16 }

theorem launch_executing : launch.Executing := .inl rfl
theorem atTop_executing : atTop.Executing := .inl rfl

theorem witness_DecoderFollowsOpcodeMap :
    (⟨0xFFFF#16, 0x00EE#16, fun _ => .ret⟩ : Row) ∈ opcodeMap ∧ decode 0x00EE#16 = .ok .ret := ⟨by simp [opcodeMap, rowsFlow], by decide⟩

theorem witness_StepRunsDecodedInstruction :
    atTop.Executing ∧ atTop.pc.toNat = 4094 ∧ atTop.inbox = [] ∧ { atTop with inbox := [.cycle] }.inbox = .cycle :: [] ∧
    decode (opcodeOfBytes (atTop.mem.read atTop.pc.toNat) (atTop.mem.read (atTop.pc.toNat + 1))) = .ok (.jp 0x234#12) := ⟨atTop_executing, by decide, rfl, rfl, by decide⟩

theorem witness_StepTakesNextEvent :
    { launch with inbox := [.reset, .cycle] }.inbox = .reset :: [.cycle] ∧ launch.inbox = [] := by decide

theorem witness_FetchIsBigEndianAndBounded :
    atTop.pc.toNat ≤ 4094 ∧ { launch with pc := 0xFFF#16 }.Executing ∧ 4094 < { launch with pc := 0xFFF#16 }.pc.toNat := ⟨by decide, .inl rfl, by decide⟩

theorem witness_CycleInIdleOrFaultedChangesNothing :
    State.reset.rs = .idle ∧ (go 0x00EE launch).rs = .faulted := by decide

theorem witness_UnknownOpcodeIsNoOp :
    launch.Executing ∧ launch.fetch = some 0x0000#16 ∧ decode 0x0000#16 = .error .family0 := ⟨launch_executing, by decide, by decide⟩

/-- The cycle that blocks and one that does not. -/
theorem witness_RunStateAfterCycle :
    (launch.withFetchWord 16 0xF50A).Executing ∧ cycle (launch.withFetchWord 16 0xF50A) = .next (go 0xF50A launch) ∧
    (go 0xF50A launch).rs = .blocked ∧ cycle atTop = .next (after atTop) ∧ (after atTop).rs = .running := ⟨.inl rfl, rfl, by decide, rfl, by decide⟩

theorem witness_ProgramCounterAfterInstruction :
    exec .ret launch = .next (ran .ret launch) ∧ (ran .ret launch).rs = .faulted ∧
    exec (.skp 0) launch = .next (ran (.skp 0) launch) ∧ (ran (.skp 0) launch).rs ≠ .faulted ∧ (0 : Fin 16).val = (launch.reg 0).toNat ∧
    execUnknown 0#16 launch = .next { launch.advance with outbox := [.diagUnknown 0x200#16 0#16] } := ⟨rfl, by decide, rfl, by decide, by decide, rfl⟩

/-- For ProgramCounterAfterInstruction, the clause of 00EE. -/
theorem witness_ProgramCounterAfterReturn :
    exec .ret { launch with sp := 16 } = .next (ran .ret { launch with sp := 16 }) ∧ (15 : Fin 16).val + 1 = { launch with sp := 16 }.sp.val := ⟨rfl, by decide⟩

/-- For AddSetsCarry, SubtractSetsNotBorrow, ReverseSubtractSetsNotBorrow, ShiftRightByOne and ShiftLeftByOne. -/
theorem witness_AluDestinationOtherThanFlag :
    (14 : Reg) ≠ 15 := by decide

theorem witness_OnlyFlagInstructionsWriteFlag :
    exec (.addReg 0 1) launch = .next (ran (.addReg 0 1) launch) ∧ writesFlag (.addReg 0 1) = true ∧
    (ran (.addReg 0 1) launch).rs ≠ .faulted ∧ exec (.ldImm 0 1#8) launch = .next (ran (.ldImm 0 1#8) launch) ∧
    writesFlag (.ldImm 0 1#8) = false ∧ destinationIsFlag (.ldImm 0 1#8) = false := ⟨rfl, rfl, by decide, rfl, rfl, rfl⟩

theorem witness_JumpGoesToTarget :
    (0xFFF#12) = 4095#12 := by decide

theorem witness_RandomByteIsMasked :
    (0x0F#8).getLsbD 7 = false := by decide

theorem witness_RejectedWordsAreTheUnknownClasses :
    decode 0x5011#16 = .error .family5 ∧ unknownFields .family5 0x5011#16 :=
  ⟨by decide, by unfold unknownFields; decide⟩

theorem witness_JumpPlusV0 :
    4094 < (ran (.jpV0 0xFFF#12) (withRegs [(0, 0xFF#8)] launch)).pc.toNat := by decide

theorem witness_CallPushesItsOwnAddress :
    (0 : Fin 16).val = launch.sp.val ∧ (15 : Fin 16).val = { launch with sp := 15 }.sp.val ∧ { launch with sp := 16 }.sp.val = 16 := by decide

theorem witness_ReturnPopsAndAdvances :
    (0 : Fin 16).val + 1 = { launch with sp := 1 }.sp.val ∧ (15 : Fin 16).val + 1 = { launch with sp := 16 }.sp.val ∧
    launch.sp.val = 0 := by decide

theorem witness_CallThenReturnRoundTrip :
    { launch with sp := 15 }.sp.val < 16 ∧ exec (.call 0x300#12) { launch with sp := 15 } = .next (ran (.call 0x300#12) { launch with sp := 15 }) ∧
    (withRegs [(0, 1#8)] (ran (.call 0x300#12) { launch with sp := 15 })).stack = (ran (.call 0x300#12) { launch with sp := 15 }).stack ∧
    (withRegs [(0, 1#8)] (ran (.call 0x300#12) { launch with sp := 15 })).sp = (ran (.call 0x300#12) { launch with sp := 15 }).sp := ⟨by decide, rfl, rfl, rfl⟩

theorem witness_SkipOnImmediate :
    launch.reg 0 = 0#8 ∧ launch.reg 0 ≠ 1#8 := by decide

theorem witness_SkipOnRegisters :
    launch.reg 0 = launch.reg 1 ∧ (withRegs [(1, 1#8)] launch).reg 0 ≠ (withRegs [(1, 1#8)] launch).reg 1 := by decide

theorem witness_DecimalDigitsStored :
    { launch with i := 4093#16 }.i.toNat ≤ 4093 ∧ 4093 < { launch with i := 4094#16 }.i.toNat := by decide

/-- For StoreRegisterBlock and LoadRegisterBlock, the last block that fits and the first that does not. -/
theorem witness_RegisterBlocks :
    { launch with i := 4080#16 }.i.toNat + (15 : Reg).val ≤ 4095 ∧ 4095 < { launch with i := 4081#16 }.i.toNat + (15 : Reg).val := by decide

theorem witness_StoreThenLoadRoundTrip :
    { launch with i := 0x300#16 }.i.toNat + (5 : Reg).val ≤ 4095 ∧
    exec (.stRegs 5) { launch with i := 0x300#16 } = .next (ran (.stRegs 5) { launch with i := 0x300#16 }) ∧
    { ran (.stRegs 5) { launch with i := 0x300#16 } with i := 0x300#16 }.i = { launch with i := 0x300#16 }.i ∧
    ∀ a, ({ ran (.stRegs 5) { launch with i := 0x300#16 } with i := 0x300#16 } : State).mem.read a =
      (ran (.stRegs 5) { launch with i := 0x300#16 }).mem.read a := ⟨by decide, rfl, rfl, fun _ => rfl⟩

theorem witness_StoredBytesAreFetched :
    { launch with i := 0x202#16 }.i.toNat + (1 : Reg).val ≤ 4095 ∧
    exec (.stRegs 1) { launch with i := 0x202#16 } = .next (ran (.stRegs 1) { launch with i := 0x202#16 }) ∧
    (1 : Reg).val = (0 : Reg).val + 1 ∧ (1 : Reg) ≤ 1 ∧
    (ran (.stRegs 1) { launch with i := 0x202#16 }).pc.toNat = State.ea { launch with i := 0x202#16 } (0 : Reg).val := ⟨by decide, rfl, by decide, by decide, by decide⟩

theorem witness_SpriteDraw :
    (0 : Fin 16).val = 0 ∧ { launch with i := 4081#16 }.i.toNat + (15 : Fin 16).val = 4096 ∧
    0 < (15 : Fin 16).val ∧ 4096 < { launch with i := 4082#16 }.i.toNat + (15 : Fin 16).val := by decide

/-- For SpriteDraw and DrawTwiceRestoresScreen: a pixel under a set sprite bit, wrapped, and the first pixel past it. -/
theorem witness_SpriteSets :
    SpriteSets (sprite [(0, 0x3C#8)]) 0 1 1 3 0 ∧ ¬ SpriteSets (sprite [(0, 0x3C#8)]) 0 1 1 4 0 := by
  refine ⟨⟨0, 7, by decide, by decide, by decide, by decide, by decide⟩, ?_⟩
  rintro ⟨r, c, -, hc, -, hx, -⟩
  have h : (sprite [(0, 0x3C#8)]).reg 0 = 0x3C#8 := by decide
  rw [h] at hx
  simp at hx
  omega

theorem witness_DrawTwiceRestoresScreen :
    (0 : Reg) ≠ 15 ∧ (1 : Reg) ≠ 15 ∧ (sprite []).i.toNat + (1 : Fin 16).val ≤ 4096 ∧
    exec (.drw 0 1 1) (sprite []) = .next (ran (.drw 0 1 1) (sprite [])) ∧
    (sprite []).pixel 0 0 = false ∧ (ran (.drw 0 1 1) (sprite [])).pixel 0 0 = true := ⟨by decide, by decide, by decide, rfl, by decide, by decide⟩

theorem witness_SkipOnKey :
    (15 : Fin 16).val = ((withRegs [(0, 15#8)] (launch.keyEvent 15 true)).reg 0).toNat ∧
    (withRegs [(0, 15#8)] (launch.keyEvent 15 true)).key 15 = true ∧ (withRegs [(0, 15#8)] launch).key 15 = false ∧
    15 < ((withRegs [(0, 16#8)] launch).reg 0).toNat := by decide

theorem witness_WaitForKey :
    (launch.keyEvent 15 true).key 15 = true ∧ (∀ l : Fin 16, l < 15 → (launch.keyEvent 15 true).key l = false) ∧
    ∀ j, launch.key j = false := by decide

theorem witness_FaultCodesAndConditions :
    exec .ret launch = .next (ran .ret launch) ∧ faultOf .ret launch = some (5#3, 0) ∧
    faultOf (.call 0#12) { launch with sp := 16 } = some (4#3, 16) ∧
    faultOf (.skp 0) (withRegs [(0, 16#8)] launch) = some (6#3, 16) ∧
    faultOf (.stBcd 0) { launch with i := 4094#16 } = some (3#3, 4096) ∧
    faultOf (.drw 0 0 1) { launch with i := 4096#16 } = some (2#3, 4096) ∧
    { launch with pc := 4095#16 }.Executing ∧ 4094 < { launch with pc := 4095#16 }.pc.toNat := ⟨rfl, by decide, by decide, by decide, by decide, by decide, .inl rfl, by decide⟩

theorem witness_FaultsArePrecise :
    (launch.withFetchWord 16 0x00EE).Executing ∧ cycle (launch.withFetchWord 16 0x00EE) = .next (go 0x00EE launch) ∧
    (go 0x00EE launch).rs = .faulted := ⟨.inl rfl, rfl, by decide⟩

theorem witness_FaultedIsLeftOnlyByReset :
    (go 0x00EE launch).rs = .faulted ∧ applyEvent .reset (go 0x00EE launch) = .next (go 0x00EE launch).resetEvent ∧
    applyEvent .redrawAck (go 0x00EE launch) = .next (go 0x00EE launch).redrawAck := ⟨by decide, rfl, rfl⟩

theorem witness_LoadProgramAllOrNothing :
    State.reset.rs = .idle ∧ (image 3584).length ≤ 3584 ∧ launch.rs ≠ .idle ∧ 3584 < (image 3585).length := ⟨rfl, by rw [length_image], by decide, by rw [length_image]; decide⟩

theorem witness_LaunchState :
    (image 3584).length ≤ 3584 := by rw [length_image]

/-- Waiting on FX0A at 0x200, key 3 pressed. -/
def waiting : State := { State.keyEvent launch 3 true with rs := .blocked, mem := storeOpcode [] 0x200 0xF10A#16 }

theorem witness_StepKeepsInvariant :
    launch.Inv ∧ step launch = .next (after launch) := ⟨⟨by decide, by decide, by decide, by decide, by decide, by decide, (fun h => by cases h), (fun h => by cases h)⟩, rfl⟩

theorem witness_BlockedCycleNeverFaults :
    waiting.Inv ∧ waiting.rs = .blocked ∧ waiting.key 3 = true ∧ ∀ l : Fin 16, l < 3 → waiting.key l = false := ⟨⟨by decide, by decide, by decide, by decide, by decide, by decide, fun _ => ⟨0xF10A#16, 1, by decide, by decide⟩, (fun h => by cases h)⟩,
    rfl, by decide, by decide⟩

/-- For BlockedCycleNeverFaults, the clause of no key pressed. -/
theorem witness_BlockedCycleNoKey :
    ({ waiting with k := launch.k } : State).Inv ∧ ∀ l, ({ waiting with k := launch.k } : State).key l = false := ⟨⟨by decide, by decide, by decide, by decide, by decide, by decide, fun _ => ⟨0xF10A#16, 1, by decide, by decide⟩, (fun h => by cases h)⟩,
    by decide⟩

theorem witness_OnlyNamedInstructionsWrite :
    exec (.ldImm 3 7#8) launch = .next (ran (.ldImm 3 7#8) launch) := rfl

theorem witness_UnreadableStateDoesNotLeak :
    Frame unreadable launch { launch with st := 9#8, rd := false, rs := .blocked } ∧
    exec (.ldImm 3 7#8) launch = .next (ran (.ldImm 3 7#8) launch) ∧
    exec (.ldImm 3 7#8) { launch with st := 9#8, rd := false, rs := .blocked } =
      .next (ran (.ldImm 3 7#8) { launch with st := 9#8, rd := false, rs := .blocked }) := by
  refine ⟨fun p hp => ?_, rfl, rfl⟩
  cases p <;> first | rfl | simp [unreadable] at hp

theorem witness_CanonicalMemoryIsUnique :
    Memory.wf [(0x200, 0x12#8), (0x300, 1#8)] ∧ ∀ a, Memory.read [(0x200, 0x12#8), (0x300, 1#8)] a =
      Memory.read ((Memory.write [] 0x300 1#8).write 0x200 0x12#8) a := ⟨by decide, fun _ => rfl⟩

end Sys2Proof.Tests
end

