-- ==== Sys2Proof/Proofs/Scope.lean ====
section
/-! Scope (00_scope.md): a step is one host event (R9), and which one. -/

namespace Sys2Proof.Machine

/-- The event a `Cycle` is (R251). -/
@[simp] theorem applyEvent_cycle (s : State) : applyEvent .cycle s = cycle s := rfl

/-- The first waiting event is taken from the inbox before it is applied (R9, R250; log 1). -/
theorem step_of_inbox_cons {s : State} {e : HostEvent} {rest : List HostEvent} (h : s.inbox = e :: rest) :
    step s = applyEvent e { s with inbox := rest } := by
  simp only [step, h]

/-- With no event waiting the step is a `Cycle` (log 1). -/
theorem step_of_inbox_nil {s : State} (h : s.inbox = []) : step s = cycle s := by
  simp only [step, h]

/-- Settles O6, by the two branches of `step`: an event waiting, and none. -/
theorem stepTakesNextEvent : Obligations.StepTakesNextEvent :=
  ⟨fun _ _ _ waiting => step_of_inbox_cons waiting,
   fun s empty => (step_of_inbox_nil empty).trans (applyEvent_cycle s).symm⟩

end Sys2Proof.Machine
end

/-! The state (10_state.md): what each instruction can answer, case by case; from that the invariant every step keeps, how
`PC` and V[15] are left, and that nothing depends on the parts no instruction reads. -/

namespace Sys2Proof.Machine

/-! ## What an instruction does, case by case -/

/-- What holds of the effect and of every fault of a checked instruction holds of its answer (R242). -/
theorem State.checked_induction {motive : State → Prop} {s e : State} {bad : Option Nat} {c : FaultCode}
    (effect : bad = none → motive e) (fault : ∀ a, bad = some a → motive (s.raiseFault c a)) :
    motive (s.checked bad c e) := by
  cases bad with
  | none => exact effect rfl
  | some a => exact fault a rfl

theorem exec_ret_of_pos {s : State} (h : 0 < s.sp.val) :
    exec .ret s =
      .next (State.goto { s with sp := ⟨s.sp.val - 1, by omega⟩ } (s.stack[s.sp.val - 1]'(by omega) + 2#16)) := by
  simp only [exec, execRet, State.pop?_of_pos h]

theorem exec_ret_of_empty {s : State} (h : s.sp.val = 0) :
    exec .ret s = .next (s.raiseFault .stackUnderflow 0) := by
  simp only [exec, execRet, State.pop?_empty h, stackFaultPolicy_eq, State.stackFault_fault]

theorem exec_call_of_lt {s : State} (nnn : BitVec 12) (h : s.sp.val < 16) :
    exec (.call nnn) s =
      .next (State.goto { s with
        stack := s.stack.set s.sp.val s.pc h, sp := ⟨s.sp.val + 1, Nat.succ_lt_succ h⟩ } (nnn.zeroExtend 16)) := by
  simp only [exec, execCall, State.push?_of_lt s.pc h]

theorem exec_call_of_full {s : State} (nnn : BitVec 12) (h : 16 ≤ s.sp.val) :
    exec (.call nnn) s = .next (s.raiseFault .stackOverflow s.sp.val) := by
  have full : s.sp.val = 16 := Nat.le_antisymm (Nat.le_of_lt_succ s.sp.isLt) h
  simp only [exec, execCall, State.push?_full s.pc full, stackFaultPolicy_eq, State.stackFault_fault]

theorem State.skipIfKey_of_lt {s : State} {x : Reg} (level : Bool) (h : (s.reg x).toNat < 16) :
    s.skipIfKey x level = s.skipIf (s.key ⟨(s.reg x).toNat, h⟩ == level) := by
  simp only [State.skipIfKey, keyIndexPolicy_eq, keyOf_fault_of_lt h]

theorem State.skipIfKey_of_ge {s : State} {x : Reg} (level : Bool) (h : 15 < (s.reg x).toNat) :
    s.skipIfKey x level = s.raiseFault .keyIndex (s.reg x).toNat := by
  simp only [State.skipIfKey, keyIndexPolicy_eq, keyOf_fault_of_ge h]

theorem exec_waitKey_of_key {s : State} (x : Reg) {k : Fin 16} (h : s.lowestKey = some k) :
    exec (.waitKey x) s = .next (s.retire x (BitVec.ofNat 8 k.val)) := by
  simp only [exec, execWaitKey, h, State.retire]

theorem exec_waitKey_of_none {s : State} (x : Reg) (h : s.lowestKey = none) :
    exec (.waitKey x) s = .next { s with rs := .blocked } := by
  simp only [exec, execWaitKey, h]

/-! ## The outcomes of an instruction -/

/-- What an instruction that runs to its end does to the parts the invariant speaks of: RUNNING (R125), the fault status
kept (R43), memory kept in its form, no new stack entry but `pc0` (R144), and `PC` in the range of R28. -/
structure Retired (s t : State) : Prop where
  rs : t.rs = .running
  fc : t.fc = s.fc
  fi : t.fi = s.fi
  fpc : t.fpc = s.fpc
  mem_wf : s.mem.wf → t.mem.wf
  entry : ∀ j, t.stack.get j = s.stack.get j ∨ t.stack.get j = s.pc
  pc_le : s.pc.toNat ≤ 4094 → (∀ j, (s.stack.get j).toNat ≤ 4094) → t.pc.toNat ≤ 0x10FE

/-- Everything an instruction can answer: the whole effect of a fault (R242), FX0A waiting for a key (R225), or its
completed effect (R124). -/
inductive ExecOutcome (i : Instr) (s : State) : State → Prop where
  | faulted (c : FaultCode) (n : Nat) (code : c ≠ .none) : ExecOutcome i s (s.raiseFault c n)
  | blocked (x : Reg) (instr : i = .waitKey x) (noKey : s.lowestKey = none) : ExecOutcome i s { s with rs := .blocked }
  | retired (t : State) (done : Retired s t) : ExecOutcome i s t

theorem toNat_add_le_of_fetched {pc : Word} (k : Word) (hpc : pc.toNat ≤ 4094) (hk : k.toNat ≤ 4) :
    (pc + k).toNat ≤ 0x10FE := by
  rw [BitVec.toNat_add]; omega

theorem toNat_target (nnn : BitVec 12) : (nnn.zeroExtend 16).toNat = nnn.toNat := by
  simp only [BitVec.truncate_eq_setWidth, BitVec.toNat_setWidth]; omega

theorem toNat_target_le (nnn : BitVec 12) : (nnn.zeroExtend 16).toNat ≤ 0x10FE := by
  rw [toNat_target]; omega

/-- An instruction that leaves memory, the stack and the fault status alone. -/
theorem Retired.of_goto {s u : State} {w : Word} (fc : u.fc = s.fc) (fi : u.fi = s.fi) (fpc : u.fpc = s.fpc)
    (mem : u.mem = s.mem) (stack : u.stack = s.stack)
    (pc : s.pc.toNat ≤ 4094 → (∀ j, (s.stack.get j).toNat ≤ 4094) → w.toNat ≤ 0x10FE) : Retired s (u.goto w) :=
  ⟨rfl, fc, fi, fpc, fun h => mem ▸ h, fun j => .inl (by rw [State.goto_stack, stack]), pc⟩

theorem Retired.of_advance {s t : State} (rs : t.rs = .running) (fc : t.fc = s.fc) (fi : t.fi = s.fi)
    (fpc : t.fpc = s.fpc) (mem_wf : s.mem.wf → t.mem.wf) (stack : t.stack = s.stack) (pc : t.pc = s.pc + 2#16) :
    Retired s t :=
  ⟨rs, fc, fi, fpc, mem_wf, fun j => .inl (by rw [stack]),
    fun hpc _ => pc ▸ toNat_add_le_of_fetched 2#16 hpc (by decide)⟩

theorem Retired.skipIf (s : State) (cond : Bool) : Retired s (s.skipIf cond) :=
  .of_goto rfl rfl rfl rfl rfl fun hpc _ => toNat_add_le_of_fetched _ hpc (by cases cond <;> decide)

theorem wf_storeIndexed {s : State} {bytes : List Byte} (h : s.mem.wf)
    (hr : s.indexOutOfRange bytes.length = none) : (s.storeIndexed bytes).wf :=
  wf_storeBytes h ((outOfRange_eq_none.1 hr).imp_left List.length_eq_zero_iff.1)

theorem ExecOutcome.of_checked {i : Instr} {s e : State} {bad : Option Nat} {c : FaultCode} (code : c ≠ .none)
    (done : bad = none → Retired s e) : ExecOutcome i s (s.checked bad c e) :=
  State.checked_induction (fun inRange => .retired _ (done inRange)) fun a _ => .faulted c a code

theorem ExecOutcome.of_skipIfKey (i : Instr) (s : State) (x : Reg) (level : Bool) :
    ExecOutcome i s (s.skipIfKey x level) := by
  rcases Nat.lt_or_ge (s.reg x).toNat 16 with h | h
  · rw [State.skipIfKey_of_lt level h]; exact .retired _ (.skipIf s _)
  · rw [State.skipIfKey_of_ge level h]; exact .faulted _ _ (by decide)

theorem Retired.call {s : State} (nnn : BitVec 12) (h : s.sp.val < 16) :
    Retired s (State.goto { s with
      stack := s.stack.set s.sp.val s.pc h, sp := ⟨s.sp.val + 1, Nat.succ_lt_succ h⟩ } (nnn.zeroExtend 16)) where
  rs := rfl
  fc := rfl
  fi := rfl
  fpc := rfl
  mem_wf := id
  entry j := by
    simp only [State.goto_stack, Vector.get_eq_getElem, Vector.getElem_set]
    split
    · exact .inr rfl
    · exact .inl rfl
  pc_le _ _ := toNat_target_le nnn

theorem exec_outcome {i : Instr} {s t : State} (h : exec i s = .next t) : ExecOutcome i s t := by
  cases i with
  | seImm | sneImm | seReg | sneReg => cases h; exact .retired _ (.skipIf s _)
  | skp x => cases h; exact .of_skipIfKey _ s x true
  | sknp x => cases h; exact .of_skipIfKey _ s x false
  | jp nnn => cases h; exact .retired _ (.of_goto rfl rfl rfl rfl rfl fun _ _ => toNat_target_le nnn)
  | jpV0 nnn =>
    cases h
    refine .retired _ (.of_goto rfl rfl rfl rfl rfl fun _ _ => ?_)
    rw [BitVec.toNat_ofNat]; omega
  | call nnn =>
    rcases Nat.lt_or_ge s.sp.val 16 with hsp | hsp
    · rw [exec_call_of_lt nnn hsp] at h; cases h; exact .retired _ (.call nnn hsp)
    · rw [exec_call_of_full nnn hsp] at h; cases h; exact .faulted _ _ (by decide)
  | ret =>
    rcases Nat.eq_zero_or_pos s.sp.val with hsp | hsp
    · rw [exec_ret_of_empty hsp] at h; cases h; exact .faulted _ _ (by decide)
    · rw [exec_ret_of_pos hsp] at h
      cases h
      exact .retired _ (.of_goto rfl rfl rfl rfl rfl fun _ entries =>
        toNat_add_le_of_fetched 2#16 (entries ⟨s.sp.val - 1, by omega⟩) (by decide))
  | waitKey x =>
    cases hk : s.lowestKey with
    | none => rw [exec_waitKey_of_none x hk] at h; cases h; exact .blocked x rfl hk
    | some k => rw [exec_waitKey_of_key x hk] at h; cases h; exact .retired _ (.of_advance rfl rfl rfl rfl id rfl rfl)
  | drw | ldRegs => cases h; exact .of_checked (by decide) fun _ => .of_advance rfl rfl rfl rfl id rfl rfl
  | stBcd x =>
    cases h
    exact .of_checked (by decide) fun inRange =>
      .of_advance rfl rfl rfl rfl (fun wf => wf_storeIndexed wf inRange) rfl rfl
  | stRegs x =>
    cases h
    refine .of_checked (by decide) fun inRange =>
      .of_advance rfl rfl rfl rfl (fun wf => wf_storeIndexed wf ?_) rfl rfl
    rw [List.length_take, Vector.length_toList, Nat.min_eq_left (by omega)]
    exact inRange
  | _ => cases h; exact .retired _ (.of_advance rfl rfl rfl rfl id rfl rfl)

/-! ## The invariant (R28, R42, R43, R242, R281) -/

section Invariant
variable {s t : State}

theorem State.Inv.fc_none (inv : s.Inv) (hrs : s.rs ≠ .faulted) : s.fc = .none :=
  not_not.1 (mt inv.faulted_iff.2 hrs)

theorem State.Executing.not_faulted (he : s.Executing) : s.rs ≠ .faulted := by
  rcases he with h | h <;> rw [h] <;> decide

/-- The invariant does not speak of the redraw flag, the keys, the draws, the inbox or the outbox. -/
theorem State.Inv.withUnconstrained (inv : s.Inv) (rd : Bool) (k : Vector Bool 16) (draws : Nat)
    (inbox : List HostEvent) (outbox : List Output) :
    State.Inv { s with rd := rd, k := k, draws := draws, inbox := inbox, outbox := outbox } :=
  ⟨inv.mem_wf, inv.pc_le, inv.entry_le, inv.faulted_iff, inv.no_fault, inv.fault_pc, inv.blocked_on_key,
    inv.idle_is_reset⟩

theorem State.Inv.raiseFault (inv : s.Inv) {c : FaultCode} (code : c ≠ .none) (n : Nat) :
    (s.raiseFault c n).Inv where
  mem_wf := inv.mem_wf
  pc_le := inv.pc_le
  entry_le := inv.entry_le
  faulted_iff := ⟨fun _ => code, fun _ => rfl⟩
  no_fault h := absurd h code
  fault_pc _ := rfl
  blocked_on_key := nofun
  idle_is_reset := nofun

/-- A machine that blocks on the FX0A at `PC` (R42). -/
theorem State.Inv.block (inv : s.Inv) (he : s.Executing) {w : Opcode} {x : Reg} (fetched : s.fetch = some w)
    (decoded : decode w = .ok (.waitKey x)) : State.Inv { s with rs := .blocked } where
  mem_wf := inv.mem_wf
  pc_le := inv.pc_le
  entry_le := inv.entry_le
  faulted_iff := ⟨nofun, fun h => absurd (inv.fc_none he.not_faulted) h⟩
  no_fault := inv.no_fault
  fault_pc := inv.fault_pc
  blocked_on_key _ := ⟨w, x, fetched, decoded⟩
  idle_is_reset := nofun

/-- RUNNING asks only for the ranges of R28, the form of memory and a clear fault status. -/
theorem State.Inv.of_running (rs : t.rs = .running) (mem_wf : t.mem.wf) (pc_le : t.pc.toNat ≤ 0x10FE)
    (entry_le : ∀ j, (t.stack.get j).toNat ≤ 4094) (fc : t.fc = .none) (fi : t.fi = 0) (fpc : t.fpc = 0) : t.Inv where
  mem_wf := mem_wf
  pc_le := pc_le
  entry_le := entry_le
  faulted_iff := ⟨fun h => (nomatch rs.symm.trans h), fun h => absurd fc h⟩
  no_fault _ := ⟨fi, fpc⟩
  fault_pc h := absurd fc h
  blocked_on_key h := nomatch rs.symm.trans h
  idle_is_reset h := nomatch rs.symm.trans h

/-- An instruction fetched from `PC` that runs to its end keeps the invariant. -/
theorem State.Inv.retired (inv : s.Inv) (he : s.Executing) (hpc : s.pc.toNat ≤ 4094) (done : Retired s t) : t.Inv := by
  have hfc := inv.fc_none he.not_faulted
  obtain ⟨hfi, hfpc⟩ := inv.no_fault hfc
  refine .of_running done.rs (done.mem_wf inv.mem_wf) (done.pc_le hpc inv.entry_le) (fun j => ?_)
    (done.fc.trans hfc) (done.fi.trans hfi) (done.fpc.trans hfpc)
  rcases done.entry j with h | h <;> rw [h]
  · exact inv.entry_le j
  · exact hpc

theorem Retired.of_execUnknown {w : Opcode} (h : execUnknown w s = .next t) : Retired s t := by
  cases h; exact .of_advance rfl rfl rfl rfl id rfl rfl

theorem cycle_of_not_executing (he : ¬ s.Executing) : cycle s = .next s := by
  unfold cycle
  cases hrs : s.rs with
  | idle | faulted => rfl
  | running => exact absurd (.inl hrs) he
  | blocked => exact absurd (.inr hrs) he

theorem cycle_keeps_inv (inv : s.Inv) (h : cycle s = .next t) : t.Inv := by
  by_cases he : s.Executing
  · rcases cycle_cases he h with ⟨-, rfl⟩ | ⟨w, i, hpc, fetched, decoded, ran⟩ | ⟨w, c, hpc, -, -, ran⟩
    · exact inv.raiseFault (by decide) _
    · cases exec_outcome ran with
      | faulted c n code => exact inv.raiseFault code n
      | blocked x instr _ => exact inv.block he fetched (instr ▸ decoded)
      | retired _ done => exact inv.retired he hpc done
    · exact inv.retired he hpc (.of_execUnknown ran)
  · rw [cycle_of_not_executing he] at h
    cases h; exact inv

theorem State.Inv.reset : State.reset.Inv where
  mem_wf := Memory.wf_nil
  pc_le := by decide
  entry_le j := by simp [State.reset, Vector.get_eq_getElem]
  faulted_iff := by decide
  no_fault _ := ⟨rfl, rfl⟩
  fault_pc h := absurd rfl h
  blocked_on_key := nofun
  idle_is_reset _ := ⟨rfl, rfl, rfl, rfl, rfl, rfl, rfl, rfl, rfl⟩

theorem State.Inv.tickTimers (inv : s.Inv) : s.tickTimers.Inv where
  mem_wf := inv.mem_wf
  pc_le := inv.pc_le
  entry_le := inv.entry_le
  faulted_iff := inv.faulted_iff
  no_fault := inv.no_fault
  fault_pc := inv.fault_pc
  blocked_on_key := inv.blocked_on_key
  idle_is_reset h := by
    obtain ⟨hv, hpc, hi, hdt, hst, rest⟩ := inv.idle_is_reset h
    exact ⟨hv, hpc, hi, by rw [State.tickTimers_dt, hdt]; rfl, by rw [State.tickTimers_st, hst]; rfl, rest⟩

theorem State.Inv.loadProgram (inv : s.Inv) (img : List Byte) : (s.loadProgram img).Inv := by
  have refused : s.loadError.Inv := inv.withUnconstrained s.rd s.k s.draws s.inbox _
  unfold State.loadProgram
  split_ifs with hrs hfits
  · exact refused
  · exact refused
  · have hidle : s.rs = .idle := not_not.1 hrs
    have hlen : img.length ≤ Config.progMax := by simpa [imageFits] using hfits
    have hfc := inv.fc_none (hidle ▸ nofun)
    obtain ⟨hfi, hfpc⟩ := inv.no_fault hfc
    exact .of_running rfl (wf_storeBytes inv.mem_wf (.inr (Nat.add_le_add_left hlen Config.progBase))) inv.pc_le
      inv.entry_le hfc hfi hfpc

theorem applyEvent_keeps_inv {e : HostEvent} (inv : s.Inv) (h : applyEvent e s = .next t) : t.Inv := by
  cases e with
  | reset => cases h; exact State.Inv.reset.withUnconstrained true s.k s.draws s.inbox s.outbox
  | loadProgram img => cases h; exact inv.loadProgram img
  | cycle => exact cycle_keeps_inv inv h
  | tickTimers => cases h; exact inv.tickTimers
  | keyEvent key pressed => cases h; exact inv.withUnconstrained s.rd _ s.draws s.inbox s.outbox
  | redrawAck => cases h; exact inv.withUnconstrained false s.k s.draws s.inbox s.outbox

end Invariant

/-- Settles O56: the event taken leaves the invariant, which does not speak of the inbox, as it was, and every event keeps
it. -/
theorem stepKeepsInvariant : Obligations.StepKeepsInvariant := by
  intro s t inv h
  cases waiting : s.inbox with
  | nil => exact cycle_keeps_inv inv (step_of_inbox_nil waiting ▸ h)
  | cons e rest =>
    exact applyEvent_keeps_inv (inv.withUnconstrained s.rd s.k s.draws rest s.outbox)
      (step_of_inbox_cons waiting ▸ h)

/-! ## The program counter (R26) -/

/-- `pc0 + 2`, taken modulo 65536 (R124). -/
theorem toNat_pc_advance {s t : State} (h : t.pc = s.pc + 2#16) : t.pc.toNat = (s.pc.toNat + 2) % 65536 := by
  rw [h]; exact BitVec.toNat_add ..

/-- `pc0 + 4` or `pc0 + 2`, as the condition of the skip holds or not (R141). -/
theorem toNat_pc_skipIf (s : State) {cond : Bool} {p : Prop} [Decidable p] (h : cond = true ↔ p) :
    (s.skipIf cond).pc.toNat = if p then (s.pc.toNat + 4) % 65536 else (s.pc.toNat + 2) % 65536 := by
  by_cases hp : p
  · rw [if_pos hp, h.2 hp]; rfl
  · rw [if_neg hp, Bool.eq_false_iff.2 (mt h.1 hp)]; rfl

theorem toNat_pc_skipIfKey {s : State} {x : Reg} {k : Fin 16} (level : Bool) (hk : k.val = (s.reg x).toNat) :
    (s.skipIfKey x level).pc.toNat =
      if s.key k = level then (s.pc.toNat + 4) % 65536 else (s.pc.toNat + 2) % 65536 := by
  have hlt : (s.reg x).toNat < 16 := hk ▸ k.isLt
  obtain rfl : k = ⟨(s.reg x).toNat, hlt⟩ := Fin.ext hk
  rw [State.skipIfKey_of_lt level hlt]
  exact toNat_pc_skipIf s beq_iff_eq

theorem newPc_of_checked {i : Instr} {s e : State} {bad : Option Nat} {c : FaultCode} (done : newPc i s e)
    (ran : (s.checked bad c e).rs ≠ .faulted) : newPc i s (s.checked bad c e) :=
  State.checked_induction (motive := fun t => t.rs ≠ .faulted → newPc i s t) (fun _ _ => done)
    (fun _ _ ran => absurd rfl ran) ran

theorem exec_newPc {i : Instr} {s t : State} (h : exec i s = .next t) (ran : t.rs ≠ .faulted) : newPc i s t := by
  cases i with
  | jp nnn => cases h; exact toNat_target nnn
  | jpV0 nnn => cases h; exact BitVec.toNat_ofNat ..
  | seImm | seReg => cases h; exact toNat_pc_skipIf s beq_iff_eq
  | sneImm | sneReg => cases h; exact toNat_pc_skipIf s bne_iff_ne
  | skp x => cases h; exact fun k hk => toNat_pc_skipIfKey true hk
  | sknp x => cases h; exact fun k hk => toNat_pc_skipIfKey false hk
  | call nnn =>
    rcases Nat.lt_or_ge s.sp.val 16 with hsp | hsp
    · rw [exec_call_of_lt nnn hsp] at h; cases h; exact toNat_target nnn
    · rw [exec_call_of_full nnn hsp] at h; cases h; exact absurd rfl ran
  | ret =>
    intro j hj
    rw [exec_ret_of_pos (by omega)] at h
    cases h
    simp only [State.goto_pc, BitVec.toNat_add, ← hj]
    rfl
  | waitKey x =>
    cases hk : s.lowestKey with
    | none =>
      have noKey := State.lowestKey_eq_none.1 hk
      rw [exec_waitKey_of_none x hk] at h
      cases h
      exact ⟨fun ⟨k, pressed⟩ => absurd pressed (by rw [noKey k]; decide), fun _ => rfl⟩
    | some k =>
      have pressed := (State.lowestKey_eq_some.1 hk).1
      rw [exec_waitKey_of_key x hk] at h
      cases h
      exact ⟨fun _ => toNat_pc_advance rfl, fun noKey => absurd pressed (by rw [noKey k]; decide)⟩
  | drw | stBcd | stRegs | ldRegs => cases h; exact newPc_of_checked (toNat_pc_advance rfl) ran
  | _ => cases h; exact toNat_pc_advance rfl

theorem exec_pc_of_faulted {i : Instr} {s t : State} (h : exec i s = .next t) (faulted : t.rs = .faulted) :
    t.pc = s.pc := by
  cases exec_outcome h with
  | faulted c n _ => rfl
  | blocked x _ _ => rfl
  | retired _ done => exact nomatch done.rs.symm.trans faulted

/-- Settles O11, from the outcomes of an instruction and the targets of those that complete. -/
theorem programCounterAfterInstruction : Obligations.ProgramCounterAfterInstruction :=
  ⟨fun _ _ _ h => ⟨exec_pc_of_faulted h, exec_newPc h⟩,
   fun _ _ _ h => by cases h; exact toNat_pc_advance rfl⟩

/-! ## The flag register (R22, R30) -/

theorem flagByte_eq (b : Bool) : flagByte b = 0#8 ∨ flagByte b = 1#8 := by
  cases b
  · exact .inl rfl
  · exact .inr rfl

/-- A flag just written is read back, whatever was written before it (R23). -/
theorem State.reg15_setReg_flag (s : State) (b : Bool) :
    (s.setReg 15 (flagByte b)).reg 15 = 0#8 ∨ (s.setReg 15 (flagByte b)).reg 15 = 1#8 := by
  rw [State.reg_setReg_self]
  exact flagByte_eq b

theorem State.reg15_retire (s : State) {x : Reg} (result : Byte) (hx : (x == 15) = false) :
    (s.retire x result).reg 15 = s.reg 15 := by
  rw [State.retire_eq, State.reg_goto, State.reg_setReg_ne s result (beq_eq_false_iff_ne.1 hx)]

/-- A block load that ends below V[15] (R199). -/
theorem reg15_writeRegs (v : Vector Byte 16) {bytes : List Byte} (h : bytes.length ≤ 15) :
    (writeRegs v 0 bytes).get 15 = v.get 15 := by
  rw [get_writeRegs, if_pos (Nat.zero_le _)]
  exact List.getD_eq_default _ _ h

theorem State.reg_skipIfKey (s : State) (x y : Reg) (level : Bool) : (s.skipIfKey x level).reg y = s.reg y := by
  unfold State.skipIfKey
  split <;> rfl

theorem exec_flag_zero_or_one {i : Instr} {s t : State} (h : exec i s = .next t) (flag : writesFlag i = true)
    (ran : t.rs ≠ .faulted) : t.reg 15 = 0#8 ∨ t.reg 15 = 1#8 := by
  cases i with
  | addReg | subReg | subn | shr | shl => cases h; exact State.reg15_setReg_flag ..
  | drw x y n =>
    cases h
    exact State.checked_induction (motive := fun t => t.rs ≠ .faulted → t.reg 15 = 0#8 ∨ t.reg 15 = 1#8)
      (fun _ _ => s.reg15_setReg_flag _) (fun _ _ ran => absurd rfl ran) ran
  | _ => cases flag

theorem exec_reg15_of_not_written {i : Instr} {s t : State} (h : exec i s = .next t) (flag : writesFlag i = false)
    (dest : destinationIsFlag i = false) : t.reg 15 = s.reg 15 := by
  cases i with
  | addReg | subReg | subn | shr | shl | drw => cases flag
  | ldImm | addImm | ldReg | orReg | andReg | xorReg | ldFromDt => cases h; exact s.reg15_retire _ dest
  | rnd => cases h; exact State.reg15_retire _ _ dest
  | waitKey x =>
    cases hk : s.lowestKey with
    | none => rw [exec_waitKey_of_none x hk] at h; cases h; rfl
    | some k => rw [exec_waitKey_of_key x hk] at h; cases h; exact s.reg15_retire _ dest
  | ldRegs x =>
    have hx : x.val ≠ 15 := fun e => beq_eq_false_iff_ne.1 dest (Fin.ext e)
    cases h
    exact State.checked_induction (motive := fun t => t.reg 15 = s.reg 15)
      (fun _ => reg15_writeRegs s.v (by rw [State.loadIndexed, length_loadBytes]; omega)) fun _ _ => rfl
  | stBcd | stRegs =>
    cases h
    exact State.checked_induction (motive := fun t => t.reg 15 = s.reg 15) (fun _ => rfl) fun _ _ => rfl
  | skp | sknp => cases h; exact s.reg_skipIfKey ..
  | call nnn =>
    rcases Nat.lt_or_ge s.sp.val 16 with hsp | hsp
    · rw [exec_call_of_lt nnn hsp] at h; cases h; rfl
    · rw [exec_call_of_full nnn hsp] at h; cases h; rfl
  | ret =>
    rcases Nat.eq_zero_or_pos s.sp.val with hsp | hsp
    · rw [exec_ret_of_empty hsp] at h; cases h; rfl
    · rw [exec_ret_of_pos hsp] at h; cases h; rfl
  | _ => cases h; rfl

/-- Settles O23, instruction by instruction: the flag is a `flagByte`, and every other write goes to the destination. -/
theorem onlyFlagInstructionsWriteFlag : Obligations.OnlyFlagInstructionsWriteFlag :=
  fun _ _ _ h => ⟨exec_flag_zero_or_one h, exec_reg15_of_not_written h⟩

/-! ## What no instruction reads (R33, R39, R43) -/

/-- A state with everything no instruction reads, and the form its memory is held in (log 10), taken from another. -/
def State.withUnreadOf (s u : State) : State :=
  { s with
    st := u.st, mem := u.mem, rd := u.rd, rs := u.rs, fc := u.fc, fi := u.fi, fpc := u.fpc
    inbox := u.inbox, outbox := u.outbox }

/-- The second state is the first but for what no instruction reads, and their memories read alike. -/
structure ReadAlike (s t : State) : Prop where
  same : t = s.withUnreadOf t
  read : ∀ a, t.mem.read a = s.mem.read a

theorem State.v_eq_of_reg {s t : State} (h : ∀ x, t.reg x = s.reg x) : t.v = s.v :=
  Vector.ext fun j hj => h ⟨j, hj⟩

theorem State.fb_eq_of_pixel {s t : State} (h : ∀ x y, t.pixel x y = s.pixel x y) : t.fb = s.fb :=
  Vector.ext fun y hy => BitVec.eq_of_getLsbD_eq fun x hx => h ⟨x, hx⟩ ⟨y, hy⟩

theorem State.k_eq_of_key {s t : State} (h : ∀ j, t.key j = s.key j) : t.k = s.k :=
  Vector.ext fun j hj => h ⟨j, hj⟩

/-- Agreement part by part is agreement of the data that instructions read. -/
theorem ReadAlike.of_frame {s t : State} (frame : Frame unreadable s t) : ReadAlike s t := by
  have hv := State.v_eq_of_reg fun x => frame (.reg x) (by simp [unreadable])
  have hpc := frame .pc (by simp [unreadable])
  have hi := frame .i (by simp [unreadable])
  have hdt := frame .dt (by simp [unreadable])
  have hstack : t.stack = s.stack := Vector.ext fun j hj => frame (.entry ⟨j, hj⟩) (by simp [unreadable])
  have hsp := frame .sp (by simp [unreadable])
  have hfb := State.fb_eq_of_pixel fun x y => frame (.pixel x y) (by simp [unreadable])
  have hk := State.k_eq_of_key fun j => frame (.key j) (by simp [unreadable])
  have hdraws := frame .draws (by simp [unreadable])
  refine ⟨?_, fun a => frame (.byte a) (by simp [unreadable])⟩
  cases s
  cases t
  simp_all [Part.same, State.withUnreadOf]

theorem ReadAlike.frame {s t : State} (alike : ReadAlike s t) : Frame unreadable s t := by
  intro p readable
  cases p with
  | reg x => exact congrArg (·.reg x) alike.same
  | pc => exact congrArg (·.pc) alike.same
  | i => exact congrArg (·.i) alike.same
  | dt => exact congrArg (·.dt) alike.same
  | entry j => exact congrArg (·.stack.get j) alike.same
  | sp => exact congrArg (·.sp) alike.same
  | byte a => exact alike.read a
  | pixel x y => exact congrArg (·.pixel x y) alike.same
  | key j => exact congrArg (·.key j) alike.same
  | draws => exact congrArg (·.draws) alike.same
  | st | rd | rs | fc | fi | fpc | inbox | outbox => simp [unreadable] at readable

theorem read_storeBytes_congr {m m' : Memory} (read : ∀ a, m'.read a = m.read a) (start : Nat) (bytes : List Byte)
    (a : Nat) : (storeBytes .fault m' start bytes).read a = (storeBytes .fault m start bytes).read a := by
  rw [read_storeBytes, read_storeBytes, read a]

theorem ReadAlike.of_answers {r r' : Result} {a b t t' : State} (h : r = .next t) (h' : r' = .next t')
    (answer : r = .next a) (answer' : r' = .next b) (alike : ReadAlike a b) : ReadAlike t t' := by
  rw [answer] at h
  rw [answer'] at h'
  cases h; cases h'; exact alike

section TwoRuns
variable {s u : State} (read : ∀ a, u.mem.read a = s.mem.read a)
include read

theorem loadIndexed_withUnreadOf (len : Nat) : (s.withUnreadOf u).loadIndexed len = s.loadIndexed len :=
  List.map_congr_left fun _ _ => read _

theorem drawSprite_withUnreadOf (x y : Reg) (n : Nat) : (s.withUnreadOf u).drawSprite x y n = s.drawSprite x y n := by
  unfold State.drawSprite
  rw [loadIndexed_withUnreadOf read]
  rfl

theorem ReadAlike.checked {e e' : State} {bad : Option Nat} {c : FaultCode} (effect : ReadAlike e e') :
    ReadAlike (s.checked bad c e) ((s.withUnreadOf u).checked bad c e') := by
  cases bad with
  | none => exact effect
  | some a => exact ⟨rfl, read⟩

theorem ReadAlike.skipIfKey (x : Reg) (level : Bool) :
    ReadAlike (s.skipIfKey x level) ((s.withUnreadOf u).skipIfKey x level) := by
  rcases Nat.lt_or_ge (s.reg x).toNat 16 with h | h
  · rw [State.skipIfKey_of_lt level h, State.skipIfKey_of_lt (s := s.withUnreadOf u) level h]
    exact ⟨rfl, read⟩
  · rw [State.skipIfKey_of_ge level h, State.skipIfKey_of_ge (s := s.withUnreadOf u) level h]
    exact ⟨rfl, read⟩

theorem exec_readAlike {i : Instr} {t t' : State} (h : exec i s = .next t)
    (h' : exec i (s.withUnreadOf u) = .next t') : ReadAlike t t' := by
  cases i with
  | call nnn =>
    rcases Nat.lt_or_ge s.sp.val 16 with hsp | hsp
    · exact .of_answers h h' (exec_call_of_lt nnn hsp) (exec_call_of_lt (s := s.withUnreadOf u) nnn hsp) ⟨rfl, read⟩
    · exact .of_answers h h' (exec_call_of_full nnn hsp) (exec_call_of_full nnn hsp) ⟨rfl, read⟩
  | ret =>
    rcases Nat.eq_zero_or_pos s.sp.val with hsp | hsp
    · exact .of_answers h h' (exec_ret_of_empty hsp) (exec_ret_of_empty hsp) ⟨rfl, read⟩
    · exact .of_answers h h' (exec_ret_of_pos hsp) (exec_ret_of_pos (s := s.withUnreadOf u) hsp) ⟨rfl, read⟩
  | waitKey x =>
    cases hk : s.lowestKey with
    | none => exact .of_answers h h' (exec_waitKey_of_none x hk) (exec_waitKey_of_none x hk) ⟨rfl, read⟩
    | some k => exact .of_answers h h' (exec_waitKey_of_key x hk) (exec_waitKey_of_key x hk) ⟨rfl, read⟩
  | skp x => cases h; cases h'; exact .skipIfKey read x true
  | sknp x => cases h; cases h'; exact .skipIfKey read x false
  | drw x y n =>
    cases h; cases h'
    refine .checked read ⟨?_, read⟩
    rw [drawSprite_withUnreadOf read]
    rfl
  | stBcd | stRegs =>
    cases h; cases h'
    exact .checked read ⟨rfl, read_storeBytes_congr read _ _⟩
  | ldRegs x =>
    cases h; cases h'
    refine .checked read ⟨?_, read⟩
    rw [loadIndexed_withUnreadOf read]
    rfl
  | _ => cases h; cases h'; exact ⟨rfl, read⟩

end TwoRuns

/-- Settles O59: the second state is the first with its unread parts exchanged, and each instruction answers alike. -/
theorem unreadableStateDoesNotLeak : Obligations.UnreadableStateDoesNotLeak := by
  intro i s s' t t' frame h h'
  have alike := ReadAlike.of_frame frame
  exact (exec_readAlike alike.read h (alike.same ▸ h')).frame

end Sys2Proof.Machine

/-! Memory (20_memory.md): memory in its canonical form is determined by what it reads as, the bytes FX55 stores are
fetched from at once (R77), and which instructions write which part of the state (R61). -/

namespace Sys2Proof.Machine

/-! ## The canonical form (R60, R65) -/

/-- With rising addresses no earlier entry hides a listed cell. -/
theorem Memory.read_of_mem {m : Memory} {a : Nat} {v : Byte} (rising : m.Pairwise fun p q => p.1 < q.1)
    (h : (a, v) ∈ m) : m.read a = v := by
  induction m with
  | nil => cases h
  | cons p m ih =>
    obtain ⟨first, rest⟩ := List.pairwise_cons.1 rising
    rw [Memory.read_cons]
    rcases List.mem_cons.1 h with rfl | h
    · exact if_pos rfl
    · rw [if_neg (Nat.ne_of_gt (first _ h)), ih rest h]

/-- An address that reads other than its reset content is listed with the byte it reads as. -/
theorem Memory.mem_of_read_ne {m : Memory} {a : Nat} (h : m.read a ≠ Memory.resetByte a) : (a, m.read a) ∈ m := by
  induction m with
  | nil => exact absurd (Memory.read_nil a) h
  | cons p m ih =>
    rw [Memory.read_cons] at h ⊢
    split_ifs at h ⊢ with hp
    · subst hp; exact List.mem_cons_self
    · exact List.mem_cons_of_mem _ (ih h)

/-- The cells a canonical memory lists are those that read other than their reset content. -/
theorem Memory.mem_iff_read {m : Memory} (wf : m.wf) {a : Nat} {v : Byte} :
    (a, v) ∈ m ↔ m.read a = v ∧ v ≠ Memory.resetByte a := by
  obtain ⟨rising, changed⟩ := wf
  constructor
  · exact fun h => ⟨Memory.read_of_mem rising h, (changed _ h).2⟩
  · rintro ⟨rfl, h⟩; exact Memory.mem_of_read_ne h

/-- Two memories with rising addresses that list the same cells list them in the same order. -/
theorem Memory.eq_of_mem_iff {m m' : Memory} (rising : m.Pairwise fun p q => p.1 < q.1)
    (rising' : m'.Pairwise fun p q => p.1 < q.1) (same : ∀ p, p ∈ m ↔ p ∈ m') : m = m' := by
  have distinct {l : Memory} (h : l.Pairwise fun p q => p.1 < q.1) : l.Nodup :=
    h.imp fun lt e => Nat.ne_of_lt lt (congrArg _ e)
  have perm : m.Perm m' := (List.perm_ext_iff_of_nodup (distinct rising) (distinct rising')).2 same
  exact perm.eq_of_pairwise (fun _ _ _ _ lt gt => absurd lt (Nat.lt_asymm gt)) rising rising'

/-- Settles O60: what the two memories read as decides which cells they list, and rising addresses decide the order. -/
theorem canonicalMemoryIsUnique : Obligations.CanonicalMemoryIsUnique := by
  intro m m' wf wf' read
  refine Memory.eq_of_mem_iff wf.1 wf'.1 fun ⟨a, v⟩ => ?_
  rw [Memory.mem_iff_read wf, Memory.mem_iff_read wf', read a]

/-! ## Stored bytes are fetched (R77, R294) -/

/-- FX55 within memory (R198). -/
theorem exec_stRegs_of_le {s : State} {x : Reg} (h : s.i.toNat + x.val ≤ 4095) :
    exec (.stRegs x) s = .next { s.advance with
      mem := s.storeIndexed (s.v.toList.take (x.val + 1)), i := s.indexAfterBlock x } := by
  have inRange : s.indexOutOfRange (x.val + 1) = none := State.indexOutOfRange_none (.inr (by omega))
  simp only [exec, execStRegs, inRange, State.checked]

/-- Each register of the block stands at its own address (R198). -/
theorem State.read_storeIndexed_regs (s : State) {x j : Reg} (h : j ≤ x) :
    (s.storeIndexed (s.v.toList.take (x.val + 1))).read (s.ea j.val) = s.reg j := by
  have le : j.val ≤ x.val := h
  have stored : j.val < (s.v.toList.take (x.val + 1)).length := by
    rw [List.length_take, Vector.length_toList]; omega
  calc (s.storeIndexed (s.v.toList.take (x.val + 1))).read (s.ea j.val)
      = (s.v.toList.take (x.val + 1))[j.val] := read_storeBytes_inside stored
    _ = s.reg j := by rw [List.getElem_take, Vector.getElem_toList]; rfl

/-- Settles O38: the fetch reads the two bytes at `PC`, which hold V[j] and V[j + 1]. -/
theorem storedBytesAreFetched : Obligations.StoredBytesAreFetched := by
  intro x j l s t inRange h succ last pc
  rw [exec_stRegs_of_le inRange] at h
  cases h
  have le : l.val ≤ x.val := last
  have pcNext : s.ea j.val + 1 = s.ea l.val := by rw [succ]; rfl
  have pcLe : s.ea j.val ≤ 4094 := by unfold State.ea; omega
  rw [State.fetch_of_le (pc ▸ pcLe), pc, pcNext]
  congr 2
  · exact s.read_storeIndexed_regs (Fin.le_def.2 (by omega))
  · exact s.read_storeIndexed_regs last

/-! ## Which instructions write which part (R20, R33, R34, R38, R39, R40, R61) -/

/-- A state with what the instruction may change taken from another: the registers, `PC`, the run state, the fault
status and the draws by any, each other part by the instructions named for it, and the keys, the inbox and the outbox by
none. -/
def State.withWritesOf (s : State) (i : Instr) (t : State) : State :=
  { s with
    v := t.v, pc := t.pc, rs := t.rs, fc := t.fc, fi := t.fi, fpc := t.fpc, draws := t.draws
    mem := match i with | .stBcd _ | .stRegs _ => t.mem | _ => s.mem
    fb := match i with | .cls | .drw _ _ _ => t.fb | _ => s.fb
    rd := match i with | .cls | .drw _ _ _ => t.rd | _ => s.rd
    stack := match i with | .ret | .call _ => t.stack | _ => s.stack
    sp := match i with | .ret | .call _ => t.sp | _ => s.sp
    dt := match i with | .ldDt _ => t.dt | _ => s.dt
    st := match i with | .ldSt _ => t.st | _ => s.st
    i := match i with | .ldI _ | .addI _ | .ldFont _ | .stRegs _ | .ldRegs _ => t.i | _ => s.i }

/-- A next state differs from the state before it only in what the instruction may change. -/
theorem exec_eq_withWritesOf {i : Instr} {s t : State} (h : exec i s = .next t) : t = s.withWritesOf i t := by
  cases i with
  | call nnn =>
    rcases Nat.lt_or_ge s.sp.val 16 with hsp | hsp
    · rw [exec_call_of_lt nnn hsp] at h; cases h; rfl
    · rw [exec_call_of_full nnn hsp] at h; cases h; rfl
  | ret =>
    rcases Nat.eq_zero_or_pos s.sp.val with hsp | hsp
    · rw [exec_ret_of_empty hsp] at h; cases h; rfl
    · rw [exec_ret_of_pos hsp] at h; cases h; rfl
  | waitKey x =>
    cases hk : s.lowestKey with
    | none => rw [exec_waitKey_of_none x hk] at h; cases h; rfl
    | some k => rw [exec_waitKey_of_key x hk] at h; cases h; rfl
  | skp x | sknp x =>
    cases h
    rcases Nat.lt_or_ge (s.reg x).toNat 16 with hx | hx
    · rw [State.skipIfKey_of_lt _ hx]; rfl
    · rw [State.skipIfKey_of_ge _ hx]; rfl
  | drw | stBcd | stRegs | ldRegs =>
    cases h
    exact State.checked_induction (motive := fun t => t = s.withWritesOf _ t) (fun _ => rfl) fun _ _ => rfl
  | _ => cases h; rfl

section Unwritten
variable {i : Instr} {s t : State}

theorem State.mem_withWritesOf (h : ∀ x, i ≠ .stBcd x ∧ i ≠ .stRegs x) : (s.withWritesOf i t).mem = s.mem := by
  cases i with
  | stBcd x => exact absurd rfl (h x).1
  | stRegs x => exact absurd rfl (h x).2
  | _ => rfl

theorem State.screen_withWritesOf (h : i ≠ .cls ∧ ∀ x y n, i ≠ .drw x y n) :
    (s.withWritesOf i t).fb = s.fb ∧ (s.withWritesOf i t).rd = s.rd := by
  cases i with
  | cls => exact absurd rfl h.1
  | drw x y n => exact absurd rfl (h.2 x y n)
  | _ => exact ⟨rfl, rfl⟩

theorem State.stack_withWritesOf (h : i ≠ .ret ∧ ∀ nnn, i ≠ .call nnn) :
    (s.withWritesOf i t).stack = s.stack ∧ (s.withWritesOf i t).sp = s.sp := by
  cases i with
  | ret => exact absurd rfl h.1
  | call nnn => exact absurd rfl (h.2 nnn)
  | _ => exact ⟨rfl, rfl⟩

theorem State.dt_withWritesOf (h : ∀ x, i ≠ .ldDt x) : (s.withWritesOf i t).dt = s.dt := by
  cases i with
  | ldDt x => exact absurd rfl (h x)
  | _ => rfl

theorem State.st_withWritesOf (h : ∀ x, i ≠ .ldSt x) : (s.withWritesOf i t).st = s.st := by
  cases i with
  | ldSt x => exact absurd rfl (h x)
  | _ => rfl

theorem State.i_withWritesOf
    (h : ∀ x nnn, i ≠ .ldI nnn ∧ i ≠ .addI x ∧ i ≠ .ldFont x ∧ i ≠ .stRegs x ∧ i ≠ .ldRegs x) :
    (s.withWritesOf i t).i = s.i := by
  cases i with
  | ldI nnn => exact absurd rfl (h 0 nnn).1
  | addI x | ldFont x | stRegs x | ldRegs x => simpa using h x 0
  | _ => rfl

end Unwritten

/-- Settles O58: a next state keeps every part that its instruction is not named for. -/
theorem onlyNamedInstructionsWrite : Obligations.OnlyNamedInstructionsWrite := by
  intro i s t h
  rw [exec_eq_withWritesOf h]
  exact ⟨fun unnamed a => congrArg (Memory.read · a) (State.mem_withWritesOf unnamed),
    fun unnamed => (State.screen_withWritesOf unnamed).imp_left fun fb => State.pixel_eq_of_fb fb,
    State.stack_withWritesOf, State.dt_withWritesOf, State.st_withWritesOf, State.i_withWritesOf,
    fun _ => rfl, rfl, rfl⟩

end Sys2Proof.Machine

/-! Encoding (30_encoding.md): the decoder against the encoder (R90 to R94) and against the classes of unknown opcodes
(R97). A word is determined by its fields, so what the decoder compares says which word it was given. -/

namespace Sys2Proof

/-! ## The words of a format (R93) -/

theorem eq_formatNNN_iff {w : Opcode} {op : BitVec 4} {nnn : BitVec 12} :
    w = formatNNN op nnn ↔ opField w = op ∧ nnnField w = nnn := by
  constructor
  · rintro rfl
    exact ⟨opField_formatNNN .., nnnField_formatNNN ..⟩
  · rintro ⟨rfl, rfl⟩
    exact (formatNNN_fields w).symm

theorem eq_formatXNN_iff {w : Opcode} {op : BitVec 4} {x : Reg} {nn : Byte} :
    w = formatXNN op x nn ↔ opField w = op ∧ xField w = x ∧ nnField w = nn := by
  constructor
  · rintro rfl
    exact ⟨opField_formatXNN .., xField_formatXNN .., nnField_formatXNN ..⟩
  · rintro ⟨rfl, rfl, rfl⟩
    exact (formatXNN_fields w).symm

theorem eq_formatXYN_iff {w : Opcode} {op : BitVec 4} {x y n : Fin 16} :
    w = formatXYN op x y (regBits n) ↔ opField w = op ∧ xField w = x ∧ yField w = y ∧ nField w = n := by
  constructor
  · rintro rfl
    exact ⟨opField_formatXYN .., xField_formatXYN .., yField_formatXYN .., nField_formatXYN ..⟩
  · rintro ⟨rfl, rfl, rfl, rfl⟩
    exact (formatXYN_fields w).symm

/-! ## What the decoder's answer says of the word (R97, R122) -/

/-- An instruction stands for its own word (R94), and a rejection names the class its fields put the word in (R97). -/
def DecodeAnswer (w : Opcode) : Except UnknownClass Instr → Prop
  | .ok i => w = encode i
  | .error c => unknownFields c w

theorem decodeFamily0_answer {w : Opcode} (op : opField w = 0x0#4) : DecodeAnswer w (decodeFamily0 w) := by
  fun_cases decodeFamily0 w with
  | case1 eq => exact eq
  | case2 _ eq => exact eq
  | case3 notCls notRet =>
    exact ⟨op, fun nnn => notCls (eq_formatNNN_iff.2 ⟨op, nnn⟩), fun nnn => notRet (eq_formatNNN_iff.2 ⟨op, nnn⟩)⟩

theorem decodeFamily8_answer {w : Opcode} (op : opField w = 0x8#4) : DecodeAnswer w (decodeFamily8 w) := by
  fun_cases decodeFamily8 w with
  | case1 n | case2 n | case3 n | case4 n | case5 n | case6 n | case7 n | case8 n | case9 n =>
    exact eq_formatXYN_iff.2 ⟨op, rfl, rfl, Fin.ext n⟩
  | case10 =>
    refine ⟨op, ?_⟩
    simp only [imp_false, List.mem_cons, List.not_mem_nil] at *
    omega

theorem decodeFamilyE_answer {w : Opcode} (op : opField w = 0xE#4) : DecodeAnswer w (decodeFamilyE w) := by
  fun_cases decodeFamilyE w with
  | case1 nn => exact eq_formatXNN_iff.2 ⟨op, rfl, nn⟩
  | case2 _ nn => exact eq_formatXNN_iff.2 ⟨op, rfl, nn⟩
  | case3 not9E notA1 => exact ⟨op, not9E, notA1⟩

theorem decodeFamilyF_answer {w : Opcode} (op : opField w = 0xF#4) : DecodeAnswer w (decodeFamilyF w) := by
  fun_cases decodeFamilyF w with
  | case1 nn | case2 _ nn | case3 _ _ nn | case4 _ _ _ nn | case5 _ _ _ _ nn | case6 _ _ _ _ _ nn
  | case7 _ _ _ _ _ _ nn | case8 _ _ _ _ _ _ _ nn | case9 _ _ _ _ _ _ _ _ nn =>
    exact eq_formatXNN_iff.2 ⟨op, rfl, nn⟩
  | case10 => exact ⟨op, by simp [*]⟩

theorem opField_eq_of_toNat {w : Opcode} {k : Nat} (h : (opField w).toNat = k) : opField w = BitVec.ofNat 4 k := by
  rw [← h, BitVec.ofNat_toNat, BitVec.setWidth_eq]

/-- Once for the whole decoder, along its branches: each compares the fields its answer speaks of. -/
theorem decode_answer (w : Opcode) : DecodeAnswer w (decode w) := by
  fun_cases decode w with
  | case1 op => exact decodeFamily0_answer (opField_eq_of_toNat op)
  | case2 op | case3 op | case13 op | case14 op => exact eq_formatNNN_iff.2 ⟨opField_eq_of_toNat op, rfl⟩
  | case4 op | case5 op | case8 op | case9 op | case15 op =>
    exact eq_formatXNN_iff.2 ⟨opField_eq_of_toNat op, rfl, rfl⟩
  | case6 op n | case11 op n => exact eq_formatXYN_iff.2 ⟨opField_eq_of_toNat op, rfl, rfl, n⟩
  | case7 op n | case12 op n => exact ⟨opField_eq_of_toNat op, n⟩
  | case10 op => exact decodeFamily8_answer (opField_eq_of_toNat op)
  | case16 op => exact eq_formatXYN_iff.2 ⟨opField_eq_of_toNat op, rfl, rfl, rfl⟩
  | case17 op => exact decodeFamilyE_answer (opField_eq_of_toNat op)
  | case18 =>
    have op : (opField w).toNat = 0xF := by
      simp only [imp_false] at *
      omega
    exact decodeFamilyF_answer (opField_eq_of_toNat op)

theorem eq_encode_of_decode_ok {w : Opcode} {i : Instr} (h : decode w = .ok i) : w = encode i := by
  have answer := decode_answer w
  rwa [h] at answer

theorem unknownFields_of_decode_error {w : Opcode} {c : UnknownClass} (h : decode w = .error c) : unknownFields c w := by
  have answer := decode_answer w
  rwa [h] at answer

/-! ## The decoder on the words of a family (R94, R97) -/

theorem decode_of_family0 {w : Opcode} (op : opField w = 0x0#4) : decode w = decodeFamily0 w := by
  simp [decode, op]

theorem decode_of_family8 {w : Opcode} (op : opField w = 0x8#4) : decode w = decodeFamily8 w := by
  simp [decode, op]

theorem decode_of_familyE {w : Opcode} (op : opField w = 0xE#4) : decode w = decodeFamilyE w := by
  simp [decode, op]

theorem decode_of_familyF {w : Opcode} (op : opField w = 0xF#4) : decode w = decodeFamilyF w := by
  simp [decode, op]

/-- The decoder reads back from an instruction's word the fields the encoder wrote there (R93, R94). -/
theorem decode_encode (i : Instr) : decode (encode i) = .ok i := by
  cases i with
  | cls | ret => rfl
  | jp | call | seImm | sneImm | seReg | ldImm | addImm | sneReg | ldI | jpV0 | rnd => simp [encode, decode]
  | drw => simp [encode, decode, regBits_toFin]
  | ldReg | orReg | andReg | xorReg | addReg | subReg | shr | subn | shl =>
    rw [encode, decode_of_family8 (opField_formatXYN ..)]
    simp [decodeFamily8]
  | skp | sknp =>
    rw [encode, decode_of_familyE (opField_formatXNN ..)]
    simp [decodeFamilyE]
  | ldFromDt | waitKey | ldDt | ldSt | addI | ldFont | stBcd | stRegs | ldRegs =>
    rw [encode, decode_of_familyF (opField_formatXNN ..)]
    simp [decodeFamilyF]

theorem decode_eq_ok_iff {w : Opcode} {i : Instr} : decode w = .ok i ↔ w = encode i :=
  ⟨eq_encode_of_decode_ok, fun h => h ▸ decode_encode i⟩

theorem decode_of_unknownFields {w : Opcode} {c : UnknownClass} (h : unknownFields c w) : decode w = .error c := by
  cases c with
  | family0 =>
    obtain ⟨op, notCls, notRet⟩ := h
    have neCls : w ≠ 0x00E0#16 := mt (congrArg nnnField) notCls
    have neRet : w ≠ 0x00EE#16 := mt (congrArg nnnField) notRet
    rw [decode_of_family0 op, decodeFamily0, if_neg neCls, if_neg neRet]
  | family5 | family9 =>
    obtain ⟨op, n⟩ := h
    simp [decode, op, n]
  | family8 =>
    obtain ⟨op, n⟩ := h
    rw [decode_of_family8 op]
    fun_cases decodeFamily8 w with
    | case1 k | case2 k | case3 k | case4 k | case5 k | case6 k | case7 k | case8 k | case9 k =>
      exact absurd (k ▸ n) (by decide)
    | case10 => rfl
  | familyE =>
    obtain ⟨op, not9E, notA1⟩ := h
    rw [decode_of_familyE op, decodeFamilyE, if_neg not9E, if_neg notA1]
  | familyF =>
    obtain ⟨op, nn⟩ := h
    rw [decode_of_familyF op]
    simp only [List.mem_cons, List.not_mem_nil, not_or] at nn
    simp [decodeFamilyF, nn]

theorem decode_eq_error_iff {w : Opcode} {c : UnknownClass} : decode w = .error c ↔ unknownFields c w :=
  ⟨unknownFields_of_decode_error, decode_of_unknownFields⟩

/-- The two bytes of a word in memory order make the word again (R67). -/
theorem opcodeOfBytes_extractLsb' (w : Opcode) : opcodeOfBytes (w.extractLsb' 8 8) (w.extractLsb' 0 8) = w :=
  BitVec.extractLsb'_append_extractLsb'

theorem decodeBytes_encodeBytes_append (i : Instr) (rest : List Byte) :
    decodeBytes (encodeBytes i ++ rest) = .ok (i, rest) := by
  simp only [encodeBytes, List.cons_append, List.nil_append, decodeBytes, opcodeOfBytes_extractLsb', decode_encode]

/-- Settles O1, by the two directions of `decode_eq_ok_iff`: the decoder's answer along its branches, and the encoder's
formats read back field by field. -/
theorem decodeInvertsEncode : Obligations.DecodeInvertsEncode :=
  ⟨fun _ _ => decode_eq_ok_iff, decodeBytes_encodeBytes_append⟩

/-- Settles O3, by the rejecting branches of the decoder and, back, by the class of the fields. -/
theorem rejectedWordsAreTheUnknownClasses : Obligations.RejectedWordsAreTheUnknownClasses :=
  fun _ _ => decode_eq_error_iff

/-- Settles O4: seven words are what the encoder builds, and 5011 has the fields of family 5 with `n` not 0. -/
theorem sampleWordsDecode : Obligations.SampleWordsDecode :=
  ⟨decode_eq_ok_iff.2 rfl, decode_eq_ok_iff.2 rfl, decode_eq_ok_iff.2 rfl, decode_eq_ok_iff.2 rfl,
    decode_eq_ok_iff.2 rfl, decode_eq_ok_iff.2 rfl, decode_eq_ok_iff.2 rfl,
    decode_eq_error_iff.2 ⟨by decide, by decide⟩⟩

end Sys2Proof

/-! The cycle (40_cycle.md): the decoder against the opcode map (R122), and what a `Cycle` does in each run state and at each
outcome of the fetch and the decoding (R120 to R131). -/

namespace Sys2Proof

/-! ## The opcode map (R94, R122) -/

/-- A row selects exactly the words that decode to the instruction it reads from them. -/
def Row.Fits (r : Row) : Prop := ∀ w, r.selects w ↔ decode w = .ok (r.instr w)

section Forms
variable {m : Opcode} {f : Opcode → Instr}

/-- A word decodes to an instruction exactly when it is the instruction's own word, so a row fits when its mask and match
say as much. -/
theorem Row.Fits.of_word {mask : Opcode} (h : ∀ w, w &&& mask = m ↔ w = encode (f w)) : Row.Fits ⟨mask, m, f⟩ :=
  fun w => (h w).trans decode_eq_ok_iff.symm

/-! One kind of row for each mask and layout of operands (R93): the mask compares exactly the fields that are no operand. -/

/-- All sixteen bits are compared (R98). -/
theorem Row.Fits.whole (word : ∀ w, encode (f w) = m) : Row.Fits ⟨0xFFFF#16, m, f⟩ :=
  .of_word fun w => by rw [word, show w &&& 0xFFFF#16 = w from BitVec.and_allOnes]

theorem Row.Fits.nnn {op : BitVec 4} (word : ∀ w, encode (f w) = formatNNN op (nnnField w))
    (mtch : m = formatNNN op 0#12) : Row.Fits ⟨0xF000#16, m, f⟩ :=
  .of_word fun w => by rw [mtch, and_F000_iff, word, eq_formatNNN_iff, and_iff_left rfl]

theorem Row.Fits.xnn {op : BitVec 4} (word : ∀ w, encode (f w) = formatXNN op (xField w) (nnField w))
    (mtch : m = formatNNN op 0#12) : Row.Fits ⟨0xF000#16, m, f⟩ :=
  .of_word fun w => by rw [mtch, and_F000_iff, word, eq_formatXNN_iff, and_iff_left ⟨rfl, rfl⟩]

theorem Row.Fits.xyn {op : BitVec 4}
    (word : ∀ w, encode (f w) = formatXYN op (xField w) (yField w) (regBits (nField w)))
    (mtch : m = formatNNN op 0#12) : Row.Fits ⟨0xF000#16, m, f⟩ :=
  .of_word fun w => by rw [mtch, and_F000_iff, word, eq_formatXYN_iff, and_iff_left ⟨rfl, rfl, rfl⟩]

theorem Row.Fits.xy {op n : BitVec 4} (word : ∀ w, encode (f w) = formatXYN op (xField w) (yField w) n)
    (mtch : m = formatXYN op 0 0 n) : Row.Fits ⟨0xF00F#16, m, f⟩ :=
  .of_word fun w => by
    have fields : w = formatXYN op (xField w) (yField w) n ↔ _ := eq_formatXYN_iff (n := n.toFin)
    rw [mtch, and_F00F_iff, word, fields, eq_self, eq_self, true_and, true_and]

theorem Row.Fits.x {op : BitVec 4} {nn : Byte} (word : ∀ w, encode (f w) = formatXNN op (xField w) nn)
    (mtch : m = formatXNN op 0 nn) : Row.Fits ⟨0xF0FF#16, m, f⟩ :=
  .of_word fun w => by rw [mtch, and_F0FF_iff, word, eq_formatXNN_iff, eq_self, true_and]

end Forms

theorem rowsFlow_fit : ∀ r ∈ rowsFlow, r.Fits := by
  simp only [rowsFlow, List.forall_mem_cons]
  exact ⟨.whole fun _ => rfl, .whole fun _ => rfl, .nnn (fun _ => rfl) rfl, .nnn (fun _ => rfl) rfl,
    .xnn (fun _ => rfl) rfl, .xnn (fun _ => rfl) rfl, .xy (fun _ => rfl) rfl, .xnn (fun _ => rfl) rfl,
    .xnn (fun _ => rfl) rfl, List.forall_mem_nil _⟩

theorem rowsAlu_fit : ∀ r ∈ rowsAlu, r.Fits := by
  simp only [rowsAlu, List.forall_mem_cons]
  refine ⟨?_, ?_, ?_, ?_, ?_, ?_, ?_, ?_, ?_, List.forall_mem_nil _⟩ <;> exact .xy (fun _ => rfl) rfl

theorem rowsMiddle_fit : ∀ r ∈ rowsMiddle, r.Fits := by
  simp only [rowsMiddle, List.forall_mem_cons]
  exact ⟨.xy (fun _ => rfl) rfl, .nnn (fun _ => rfl) rfl, .nnn (fun _ => rfl) rfl, .xnn (fun _ => rfl) rfl,
    .xyn (fun _ => rfl) rfl, .x (fun _ => rfl) rfl, .x (fun _ => rfl) rfl, List.forall_mem_nil _⟩

theorem rowsF_fit : ∀ r ∈ rowsF, r.Fits := by
  simp only [rowsF, List.forall_mem_cons]
  refine ⟨?_, ?_, ?_, ?_, ?_, ?_, ?_, ?_, ?_, List.forall_mem_nil _⟩ <;> exact .x (fun _ => rfl) rfl

theorem opcodeMap_fits : ∀ r ∈ opcodeMap, r.Fits := by
  simp only [opcodeMap, List.forall_mem_append]
  exact ⟨⟨⟨rowsFlow_fit, rowsAlu_fit⟩, rowsMiddle_fit⟩, rowsF_fit⟩

/-- The rows stand in the order of the constructors, one for each. -/
theorem ctorIdx_opcodeMap (w : Opcode) : opcodeMap.map (fun r => (r.instr w).ctorIdx) = List.range 34 := rfl

theorem ctorIdx_getElem_opcodeMap (w : Opcode) {j : Nat} (hj : j < opcodeMap.length) :
    (opcodeMap[j].instr w).ctorIdx = j := by
  have places := List.getElem_of_eq (ctorIdx_opcodeMap w) (i := j) (by rwa [List.length_map])
  rwa [List.getElem_map, List.getElem_range] at places

open Laws.EncodedInMap in
theorem encodedInMap (i : Instr) : Laws.EncodedInMap.Statement i := by
  cases i
  exacts [cls, ret, jp _, call _, seImm _ _, sneImm _ _, seReg _ _, ldImm _ _, addImm _ _, ldReg _ _, orReg _ _,
    andReg _ _, xorReg _ _, addReg _ _, subReg _ _, shr _ _, subn _ _, shl _ _, sneReg _ _, ldI _, jpV0 _, rnd _ _,
    drw _ _ _, skp _, sknp _, ldFromDt _, waitKey _, ldDt _, ldSt _, addI _, ldFont _, stBcd _, stRegs _, ldRegs _]

/-- Two rows that select one word read the same instruction from it, and rows at two places read different ones. -/
theorem opcodeMap_disjoint : opcodeMap.Pairwise fun r q => ∀ w, ¬ (r.selects w ∧ q.selects w) := by
  refine List.pairwise_iff_getElem.2 fun j l hj hl hlt w ⟨selectsJ, selectsL⟩ => ?_
  have decodesJ := (opcodeMap_fits _ (List.getElem_mem hj) w).1 selectsJ
  have decodesL := (opcodeMap_fits _ (List.getElem_mem hl) w).1 selectsL
  have same : opcodeMap[j].instr w = opcodeMap[l].instr w := Except.ok.inj (decodesJ.symm.trans decodesL)
  have samePlace := congrArg Instr.ctorIdx same
  rw [ctorIdx_getElem_opcodeMap, ctorIdx_getElem_opcodeMap] at samePlace
  exact hlt.ne samePlace

/-- Settles O2: each row fits, form by form; the word a decoded instruction stands for is selected by the row of that
instruction; the rows are disjoint because no two read instructions of one kind. -/
theorem decoderFollowsOpcodeMap : Obligations.DecoderFollowsOpcodeMap := by
  refine ⟨rfl, opcodeMap_fits, fun w i decoded => ?_, opcodeMap_disjoint⟩
  obtain rfl := decode_eq_ok_iff.1 decoded
  exact encodedInMap i

end Sys2Proof

namespace Sys2Proof.Machine

/-! ## `Cycle` where the machine executes (R120 to R126) -/

section Cycle
variable {s t : State} {w : Opcode}

theorem cycle_of_decoded {i : Instr} (he : s.Executing) (fetched : s.fetch = some w) (decoded : decode w = .ok i) :
    cycle s = exec i s := by
  simp only [cycle_of_executing he, fetchExecute, fetched, decoded]

theorem cycle_of_unknown {c : UnknownClass} (he : s.Executing) (fetched : s.fetch = some w)
    (decoded : decode w = .error c) : cycle s = execUnknown w s := by
  simp only [cycle_of_executing he, fetchExecute, fetched, decoded]

theorem cycle_of_unfetched (he : s.Executing) (unfetched : s.fetch = none) :
    cycle s = .next (s.raiseFault .fetchRange s.pc.toNat) := by
  simp only [cycle_of_executing he, fetchExecute, unfetched]

theorem OnlyChanges.mono {parts parts' : List Part} (sub : parts ⊆ parts') (only : OnlyChanges parts s t) :
    OnlyChanges parts' s t :=
  fun p untouched => only p fun listed => untouched (sub listed)

/-- RS after an instruction that does not fault (R125). -/
theorem exec_rs_of_not_faulted {i : Instr} (h : exec i s = .next t) (ran : t.rs ≠ .faulted) :
    (t.rs = .blocked ∧ (∃ x, i = .waitKey x) ∧ ∀ k, s.key k = false) ∨
    (t.rs = .running ∧ ¬ ((∃ x, i = .waitKey x) ∧ ∀ k, s.key k = false)) := by
  cases exec_outcome h with
  | faulted => exact absurd rfl ran
  | blocked x instr noKey => exact .inl ⟨rfl, ⟨x, instr⟩, State.lowestKey_eq_none.1 noKey⟩
  | retired _ done =>
    refine .inr ⟨done.rs, ?_⟩
    rintro ⟨⟨x, rfl⟩, noKey⟩
    rw [exec_waitKey_of_none x (State.lowestKey_eq_none.2 noKey)] at h
    cases h
    exact nomatch done.rs

theorem OnlyChanges.execUnknown (s : State) (w : Opcode) :
    OnlyChanges [.pc, .rs, .outbox] s { s.advance with outbox := .diagUnknown s.pc w :: s.outbox } := by
  intro p untouched
  cases p with
  | pc | rs | outbox => simp at untouched
  | _ => rfl

end Cycle

/-- Settles O10, by what the `Cycle` met: a fault, which is excluded, an instruction, or an unknown opcode. -/
theorem runStateAfterCycle : Obligations.RunStateAfterCycle := by
  intro s t he h ran
  rcases cycle_cases he h with ⟨-, rfl⟩ | ⟨w, i, -, fetched, decoded, executed⟩ | ⟨w, c, -, fetched, decoded, executed⟩
  · exact absurd rfl ran
  · rcases exec_rs_of_not_faulted executed ran with ⟨rs, waits⟩ | ⟨rs, moves⟩
    · simpa [rs, fetched, decoded] using waits
    · simpa [rs, fetched, decoded] using moves
  · have rs := (Retired.of_execUnknown executed).rs
    simp [rs, fetched, decoded]

/-- Settles O57: by the invariant the word at `PC` is an FX0A, and the machine waits or takes the lowest key. -/
theorem blockedCycleNeverFaults : Obligations.BlockedCycleNeverFaults := by
  intro s inv blocked
  obtain ⟨w, x, fetched, decoded⟩ := inv.blocked_on_key blocked
  rw [cycle_of_decoded (.inr blocked) fetched decoded]
  cases lowest : s.lowestKey with
  | none =>
    have noKey := State.lowestKey_eq_none.1 lowest
    have unchanged : { s with rs := .blocked } = s := by rw [← blocked]
    rw [exec_waitKey_of_none x lowest, unchanged]
    exact ⟨s, rfl, State.Executing.not_faulted (.inr blocked), fun _ => rfl,
      fun k pressed => absurd pressed (by simp [noKey k])⟩
  | some j =>
    have pressed := (State.lowestKey_eq_some.1 lowest).1
    refine ⟨_, exec_waitKey_of_key x lowest, nofun, fun noKey => absurd pressed (by simp [noKey j]),
      fun k hk below => ⟨rfl, rfl, x, ?_, (OnlyChanges.setReg_goto s x _ _).mono (by simp)⟩⟩
    obtain rfl : j = k := Option.some.inj (lowest.symm.trans (State.lowestKey_eq_some.2 ⟨hk, below⟩))
    rw [State.retire_eq, State.reg_goto, State.reg_setReg_self, BitVec.toNat_ofNat]
    omega

/-- Settles O5: neither the fetch nor the run state looks at the inbox, so taking the event leaves the `Cycle` what it
was. -/
theorem stepRunsDecodedInstruction : Obligations.StepRunsDecodedInstruction := by
  intro s i rest he hpc decoded
  refine ⟨fun empty => ?_, fun waiting => ?_⟩
  · rw [step_of_inbox_nil empty]
    exact cycle_of_decoded he (State.fetch_of_le hpc) decoded
  · rw [step_of_inbox_cons waiting]
    exact cycle_of_decoded (s := { s with inbox := rest }) he (State.fetch_of_le hpc) decoded

/-- Settles O7, by the two sides of the bound (R121). -/
theorem fetchIsBigEndianAndBounded : Obligations.FetchIsBigEndianAndBounded :=
  ⟨fun _ hpc => ⟨_, State.fetch_of_le hpc, toNat_append_arith _ _⟩,
   fun s he hpc => ⟨_, cycle_of_unfetched he (State.fetch_of_gt hpc), .of_raiseFault s _ _ (by omega)⟩⟩

/-- Settles O8: neither run state is one that executes. -/
theorem cycleInIdleOrFaultedChangesNothing : Obligations.CycleInIdleOrFaultedChangesNothing := by
  intro s stopped
  refine cycle_of_not_executing fun executing => ?_
  rcases stopped with rs | rs <;> simp [State.Executing, rs] at executing

/-- Settles O9: the `Cycle` is `execUnknown` (R126). -/
theorem unknownOpcodeIsNoOp : Obligations.UnknownOpcodeIsNoOp :=
  fun s w _ he fetched decoded =>
    ⟨_, cycle_of_unknown he fetched decoded, rfl, rfl, rfl, .execUnknown s w⟩

end Sys2Proof.Machine

/-! Control transfer (41_control_flow.md): jumps, the conditional skips, call and return. Each completes by one `goto`,
from the state itself or from the one the call stack was changed in. -/

namespace Sys2Proof.Machine

/-- A row of the opcode map that fits says how its instruction is encoded (R94). -/
theorem EncodedBy.of_fits {mask mtch : Opcode} {f : Opcode → Instr} (fits : Row.Fits ⟨mask, mtch, f⟩) :
    EncodedBy mask mtch f :=
  fun w => (fits w).symm

/-! ## Completing by a `goto` (R125) -/

theorem OnlyChanges.goto_after {parts : List Part} {s t : State} (only : OnlyChanges parts s t) (w : Word) :
    OnlyChanges (.pc :: .rs :: parts) s (t.goto w) := by
  intro p untouched
  simp only [List.mem_cons, not_or] at untouched
  obtain ⟨notPc, notRs, notListed⟩ := untouched
  have same := only p notListed
  cases p with
  | pc => exact absurd rfl notPc
  | rs => exact absurd rfl notRs
  | _ => exact same

theorem CompletesAt.of_goto {i : Instr} {s t : State} {w : Word} {parts : List Part} {post : State → Prop}
    (answer : exec i s = .next (t.goto w)) (only : OnlyChanges parts s t) (holds : post (t.goto w)) :
    CompletesAt i s w parts post :=
  ⟨_, answer, rfl, rfl, only.goto_after w, holds⟩

theorem CompletesAt.imp_post {i : Instr} {s : State} {w : Word} {parts : List Part} {post post' : State → Prop}
    (imp : ∀ t, post t → post' t) (done : CompletesAt i s w parts post) : CompletesAt i s w parts post' := by
  obtain ⟨t, answer, pc, rs, only, holds⟩ := done
  exact ⟨t, answer, pc, rs, only, imp t holds⟩

/-! ## The call stack (R144, R145) -/

theorem OnlyChanges.push (s : State) (w : Word) {j : Fin 16} (sp : Fin 17) :
    OnlyChanges [.entry j, .sp] s { s with stack := s.stack.set j.val w j.isLt, sp := sp } := by
  intro p untouched
  cases p with
  | entry l =>
    have ne : j.val ≠ l.val := fun eq => untouched (by simp [Fin.ext eq])
    exact Vector.getElem_set_ne j.isLt l.isLt ne
  | sp => simp at untouched
  | _ => rfl

theorem OnlyChanges.pop (s : State) (sp : Fin 17) : OnlyChanges [.sp] s { s with sp := sp } := by
  intro p untouched
  cases p with
  | sp => simp at untouched
  | _ => rfl

/-- The call pushes its own address, `pc0` (R144). -/
theorem call_completesAt {s : State} (nnn : BitVec 12) {j : Fin 16} (hj : j.val = s.sp.val) :
    CompletesAt (.call nnn) s (nnn.zeroExtend 16) [.entry j, .sp] fun t =>
      t.stack.get j = s.pc ∧ t.sp.val = s.sp.val + 1 := by
  have room : s.sp.val < 16 := hj ▸ j.isLt
  obtain rfl : j = ⟨s.sp.val, room⟩ := Fin.ext hj
  exact .of_goto (exec_call_of_lt nnn room) (.push s s.pc _) ⟨Vector.getElem_set_self room, rfl⟩

/-- The return goes to the popped address plus 2 and leaves the entry in the array (R145). -/
theorem ret_completesAt {s : State} {j : Fin 16} (hj : j.val + 1 = s.sp.val) :
    CompletesAt .ret s (s.stack.get j + 2#16) [.sp] fun t => t.sp.val = j.val := by
  have top : s.sp.val - 1 = j.val := by omega
  have answer := exec_ret_of_pos (s := s) (by omega)
  simp only [top] at answer
  exact .of_goto answer (.pop s _) rfl

/-- Settles O28, from what the call pushed (R144) and what the return pops (R145). -/
theorem callThenReturnRoundTrip : Obligations.CallThenReturnRoundTrip := by
  intro nnn s t room called u stack sp
  obtain ⟨t', called', -, -, -, pushed, sp'⟩ := call_completesAt nnn (s := s) (j := ⟨s.sp.val, room⟩) rfl
  obtain rfl : t' = t := Host.Outcome.next.inj (called'.symm.trans called)
  rw [← pushed, ← stack]
  exact (ret_completesAt (by rw [sp, sp'])).imp_post fun w popped => Fin.ext popped

/-- Settles O26, by the two answers of the push. -/
theorem callPushesItsOwnAddress : Obligations.CallPushesItsOwnAddress := by
  refine ⟨.of_fits (.nnn (fun _ => rfl) rfl), fun nnn s j hj => call_completesAt nnn hj, fun nnn s full => ?_⟩
  have answer := exec_call_of_full nnn full.ge
  rw [full] at answer
  exact ⟨_, answer, .of_raiseFault s _ _ (by decide)⟩

/-- Settles O27, by the two answers of the pop. -/
theorem returnPopsAndAdvances : Obligations.ReturnPopsAndAdvances :=
  ⟨.of_fits (.whole fun _ => rfl), fun _ _ hj => ret_completesAt hj,
   fun s empty => ⟨_, exec_ret_of_empty empty, .of_raiseFault s _ _ (by decide)⟩⟩

/-! ## Jumps (R143, R150) -/

/-- The target of BNNN is the sum itself, which 16 bits hold (R150). -/
theorem toNat_target_add (nnn : BitVec 12) (b : Byte) :
    (nnn.zeroExtend 16 + b.zeroExtend 16).toNat = nnn.toNat + b.toNat := by
  simp only [BitVec.truncate_eq_setWidth, BitVec.toNat_add, BitVec.toNat_setWidth]
  omega

theorem exec_jpV0 (nnn : BitVec 12) (s : State) :
    exec (.jpV0 nnn) s = .next (s.goto (nnn.zeroExtend 16 + (s.reg 0).zeroExtend 16)) := by
  have target : BitVec.ofNat 16 (nnn.toNat + (s.reg 0).toNat) = nnn.zeroExtend 16 + (s.reg 0).zeroExtend 16 := by
    rw [← toNat_target_add, BitVec.ofNat_toNat, BitVec.setWidth_eq]
  rw [← target]
  rfl

/-- After a jump the next `Cycle` fetches from the target, and faults when it is above 4094 (R121). -/
theorem cycle_goto_of_gt (s : State) {w : Word} (h : 4094 < w.toNat) :
    ∃ u, cycle (s.goto w) = .next u ∧ Faults .fetchRange w.toNat (s.goto w) u :=
  fetchIsBigEndianAndBounded.2 (s.goto w) (.inl rfl) h

/-- Settles O24: FFF is 4095, the one target above 4094. -/
theorem jumpGoesToTarget : Obligations.JumpGoesToTarget := by
  refine ⟨.of_fits (.nnn (fun _ => rfl) rfl), fun nnn s => .of_goto rfl (.refl [] s) ?_⟩
  rintro rfl
  exact cycle_goto_of_gt s (by decide)

/-- Settles O25: the sum is below 65536, so the target is the sum, and `Cycle` faults on one above 4094. -/
theorem jumpPlusV0 : Obligations.JumpPlusV0 :=
  ⟨.of_fits (.nnn (fun _ => rfl) rfl), fun nnn s =>
    .of_goto (exec_jpV0 nnn s) (.refl [] s) ⟨toNat_target_add nnn (s.reg 0), cycle_goto_of_gt s⟩⟩

/-! ## Conditional skips (R146 to R149) -/

section Skips
variable {i i' : Instr} {s : State}

/-- `pc0 + 4` when the condition holds (R141). -/
theorem CompletesAt.of_skipIf_true {cond : Bool} (answer : exec i s = .next (s.skipIf cond)) (holds : cond = true) :
    CompletesAt i s (s.pc + 4#16) [] fun _ => True := by
  subst holds
  exact .of_goto answer (.refl [] s) trivial

/-- `pc0 + 2` when the condition does not hold (R141). -/
theorem CompletesAt.of_skipIf_false {cond : Bool} (answer : exec i s = .next (s.skipIf cond)) (fails : cond = false) :
    CompletesAt i s (s.pc + 2#16) [] fun _ => True := by
  subst fails
  exact .of_goto answer (.refl [] s) trivial

/-- A skip on equality and a skip on inequality of the same two bytes: exactly one of them skips. -/
theorem completesAt_of_opposite_skips {a b : Byte} (skipsEq : exec i s = .next (s.skipIf (a == b)))
    (skipsNe : exec i' s = .next (s.skipIf (a != b))) :
    (a = b → CompletesAt i s (s.pc + 4#16) [] (fun _ => True) ∧ CompletesAt i' s (s.pc + 2#16) [] fun _ => True) ∧
    (a ≠ b → CompletesAt i s (s.pc + 2#16) [] (fun _ => True) ∧ CompletesAt i' s (s.pc + 4#16) [] fun _ => True) :=
  ⟨fun eq => ⟨.of_skipIf_true skipsEq (beq_iff_eq.2 eq), .of_skipIf_false skipsNe (bne_eq_false_iff_eq.2 eq)⟩,
   fun ne => ⟨.of_skipIf_false skipsEq (beq_eq_false_iff_ne.2 ne), .of_skipIf_true skipsNe (bne_iff_ne.2 ne)⟩⟩

end Skips

/-- Settles O29: the two test the comparison of V[x] with `nn` and its negation. -/
theorem skipOnImmediate : Obligations.SkipOnImmediate :=
  ⟨⟨.of_fits (.xnn (fun _ => rfl) rfl), .of_fits (.xnn (fun _ => rfl) rfl)⟩,
   fun _ _ _ => completesAt_of_opposite_skips rfl rfl⟩

/-- Settles O30: the two test the comparison of V[x] with V[y] and its negation. -/
theorem skipOnRegisters : Obligations.SkipOnRegisters :=
  ⟨⟨.of_fits (.xy (fun _ => rfl) rfl), .of_fits (.xy (fun _ => rfl) rfl)⟩,
   fun _ _ _ => completesAt_of_opposite_skips rfl rfl⟩

end Sys2Proof.Machine

/-! Load-immediate, ALU, shift and random instructions (42_alu.md). Each completes by one `retire`, or by one `retireFlag`
when it also leaves a flag in V[15]; what differs is the value of the result and of the flag. -/

namespace Sys2Proof.Machine

/-! ## Completing by a write of V[x], and of V[15] after it (R23) -/

section Completing
variable {i : Instr} {s t : State} {x : Reg} {result flag flag' : Byte} {n : Nat}

theorem OnlyChanges.setReg_after {parts : List Part} (only : OnlyChanges parts s t) (x : Reg) (b : Byte) :
    OnlyChanges (.reg x :: parts) s (t.setReg x b) := by
  intro p untouched
  obtain ⟨notWritten, notListed⟩ := List.ne_and_not_mem_of_not_mem_cons untouched
  have same := only p notListed
  cases p with
  | reg y => exact (State.reg_setReg_ne t b fun eq => notWritten (congrArg Part.reg eq.symm)).trans same
  | _ => exact same

theorem Completes.of_retire (answer : exec i s = .next (s.retire x result)) :
    Completes i s [.reg x] fun t => t.reg x = result :=
  .of_goto answer (.setReg_after (.refl [] s) x result) (State.reg_setReg_self s x result)

/-- With `x = 15` the flag has overwritten the result (R23), so the result is read only from another register. -/
theorem State.reg_retireFlag (s : State) (x : Reg) (toNat_result : result.toNat = n) (flag_eq : flag = flag') :
    (x ≠ 15 → ((s.retireFlag x result flag).reg x).toNat = n) ∧ (s.retireFlag x result flag).reg 15 = flag' := by
  simp only [State.retireFlag_eq, State.reg_goto]
  refine ⟨fun notFlag => ?_, (State.reg_setReg_self _ 15 flag).trans flag_eq⟩
  rw [State.reg_setReg_ne _ flag notFlag.symm, State.reg_setReg_self, toNat_result]

theorem Completes.of_retireFlag (answer : exec i s = .next (s.retireFlag x result flag))
    (toNat_result : result.toNat = n) (flag_eq : flag = flag') :
    Completes i s [.reg x, .reg 15] fun t => (x ≠ 15 → (t.reg x).toNat = n) ∧ t.reg 15 = flag' :=
  ⟨_, answer, rfl, rfl, .setReg_setReg_goto s x result flag _, s.reg_retireFlag x toNat_result flag_eq⟩

end Completing

/-! ## Results and flags as numbers -/

theorem flagByte_decide (p : Prop) [Decidable p] : flagByte (decide p) = if p then 1#8 else 0#8 := by
  simp only [flagByte, decide_eq_true_eq]

theorem carryFlag_eq (a b : Byte) : carryFlag a b = if 255 < a.toNat + b.toNat then 1#8 else 0#8 :=
  flagByte_decide _

theorem noBorrowFlag_eq (a b : Byte) : noBorrowFlag a b = if b.toNat ≤ a.toNat then 1#8 else 0#8 :=
  flagByte_decide _

theorem rightShiftFlag_eq (a : Byte) : rightShiftFlag a = if a.toNat % 2 = 1 then 1#8 else 0#8 := by
  rw [rightShiftFlag, BitVec.getLsbD, Nat.testBit_zero, flagByte_decide]

/-- Bit 7 is the most significant bit, set from 128 on. -/
theorem leftShiftFlag_eq (a : Byte) : leftShiftFlag a = if 128 ≤ a.toNat then 1#8 else 0#8 := by
  have bit7 : a.getLsbD 7 = decide (128 ≤ a.toNat) := a.msb_eq_getLsbD_last.symm.trans a.msb_eq_decide
  rw [leftShiftFlag, bit7, flagByte_decide]

/-- A subtraction that borrows adds 256 to the minuend (R170). -/
theorem toNat_sub_eq_ite (a b : Byte) :
    (a - b).toNat = if b.toNat ≤ a.toNat then a.toNat - b.toNat else a.toNat + 256 - b.toNat := by
  split
  · next noBorrow => exact BitVec.toNat_sub_of_le noBorrow
  · next borrow => rw [BitVec.toNat_sub_of_lt (Nat.lt_of_not_le borrow)]; omega

theorem toNat_shiftRight_one (a : Byte) : (a >>> 1).toNat = a.toNat / 2 := by
  rw [BitVec.toNat_ushiftRight, Nat.shiftRight_one]

theorem toNat_shiftLeft_one (a : Byte) : (a <<< 1).toNat = a.toNat * 2 % 256 := by
  rw [BitVec.toNat_shiftLeft, Nat.shiftLeft_eq, pow_one]

/-! ## Without a flag (R161, R162, R165 to R168) -/

/-- Settles O12: the immediate is the value retired. -/
theorem loadImmediate : Obligations.LoadImmediate :=
  ⟨.of_fits (.xnn (fun _ => rfl) rfl), fun _ _ _ => .of_retire rfl⟩

/-- Settles O13: the value retired is the sum, reduced to a byte. -/
theorem addImmediateWrapsWithoutFlag : Obligations.AddImmediateWrapsWithoutFlag := by
  refine ⟨.of_fits (.xnn (fun _ => rfl) rfl), fun x nn s => (Completes.of_retire rfl).imp_post fun t sum => ?_⟩
  rw [sum, BitVec.toNat_ofNat]

/-- Settles O14: V[y] is the value retired. -/
theorem copyRegister : Obligations.CopyRegister :=
  ⟨.of_fits (.xy (fun _ => rfl) rfl), fun _ _ _ => .of_retire rfl⟩

/-- Settles O15: the value retired is the operation on whole bytes, read bit by bit. -/
theorem logicOperationsLeaveFlag : Obligations.LogicOperationsLeaveFlag := by
  refine ⟨⟨.of_fits (.xy (fun _ => rfl) rfl), .of_fits (.xy (fun _ => rfl) rfl), .of_fits (.xy (fun _ => rfl) rfl)⟩,
    fun x y s => (Completes.of_retire rfl).imp_post fun t value j => ?_,
    fun x y s => (Completes.of_retire rfl).imp_post fun t value j => ?_,
    fun x y s => (Completes.of_retire rfl).imp_post fun t value j => ?_⟩
  · rw [value, BitVec.getLsbD_or]
  · rw [value, BitVec.getLsbD_and]
  · rw [value, BitVec.getLsbD_xor, Bool.bne_eq_xor]

/-! ## With a flag (R169 to R173) -/

/-- Settles O16: the sum reduced to a byte, and its carry. -/
theorem addSetsCarry : Obligations.AddSetsCarry :=
  ⟨.of_fits (.xy (fun _ => rfl) rfl), fun _ _ _ => .of_retireFlag rfl (BitVec.toNat_ofNat _ 8) (carryFlag_eq _ _)⟩

/-- Settles O17: the difference of bytes, and NOT borrow. -/
theorem subtractSetsNotBorrow : Obligations.SubtractSetsNotBorrow :=
  ⟨.of_fits (.xy (fun _ => rfl) rfl), fun _ _ _ => .of_retireFlag rfl (toNat_sub_eq_ite _ _) (noBorrowFlag_eq _ _)⟩

/-- Settles O18: as O17 with the operands exchanged. -/
theorem reverseSubtractSetsNotBorrow : Obligations.ReverseSubtractSetsNotBorrow :=
  ⟨.of_fits (.xy (fun _ => rfl) rfl), fun _ _ _ => .of_retireFlag rfl (toNat_sub_eq_ite _ _) (noBorrowFlag_eq _ _)⟩

/-- Settles O19: under either setting the shift is one `retireFlag`, of the operand the setting selects. -/
theorem shiftRightByOne : Obligations.ShiftRightByOne :=
  ⟨.of_fits (.xy (fun _ => rfl) rfl),
   fun _ _ _ => .of_retireFlag rfl (toNat_shiftRight_one _) (rightShiftFlag_eq _),
   fun x _ s => s.reg_retireFlag x (toNat_shiftRight_one _) (rightShiftFlag_eq _)⟩

/-- Settles O20: under either setting the shift is one `retireFlag`, of the operand the setting selects. -/
theorem shiftLeftByOne : Obligations.ShiftLeftByOne :=
  ⟨.of_fits (.xy (fun _ => rfl) rfl),
   fun _ _ _ => .of_retireFlag rfl (toNat_shiftLeft_one _) (leftShiftFlag_eq _),
   fun x _ s => s.reg_retireFlag x (toNat_shiftLeft_one _) (leftShiftFlag_eq _)⟩

theorem State.shiftRight_self (s : State) (p q : Config.ShiftSource) (x : Reg) :
    s.shiftRight p x x = s.shiftRight q x x := by
  simp only [State.shiftRight, shiftOperand_self]

theorem State.shiftLeft_self (s : State) (p q : Config.ShiftSource) (x : Reg) :
    s.shiftLeft p x x = s.shiftLeft q x x := by
  simp only [State.shiftLeft, shiftOperand_self]

/-- Settles O21: with `y = x` both settings select the same operand. -/
theorem shiftSourceSetting : Obligations.ShiftSourceSetting :=
  fun p x s => ⟨congrArg Host.Outcome.next (s.shiftRight_self Config.shiftSource p x),
    congrArg Host.Outcome.next (s.shiftLeft_self Config.shiftSource p x)⟩

/-! ## The random byte (R181) -/

theorem State.reg_randomAnd (s : State) (rand : Byte) (x : Reg) (nn : Byte) :
    (s.randomAnd rand x nn).reg x = rand &&& nn :=
  State.reg_setReg_self s x (rand &&& nn)

theorem OnlyChanges.draw (s : State) (n : Nat) : OnlyChanges [.draws] s { s with draws := n } := by
  intro p untouched
  cases p with
  | draws => simp at untouched
  | _ => rfl

/-- Settles O22: the draw is counted, then the masked byte retired; a bit masked out is 0 whatever was drawn. -/
theorem randomByteIsMasked : Obligations.RandomByteIsMasked := by
  refine ⟨.of_fits (.xnn (fun _ => rfl) rfl), fun r x nn s => s.reg_randomAnd r x nn, fun x nn s =>
    .of_goto rfl (.setReg_after (.draw s (s.draws + 1)) x _) ⟨State.reg_randomAnd _ _ x nn, rfl, fun j maskedOut => ?_⟩⟩
  rw [State.reg_goto, State.reg_setReg_self, BitVec.getLsbD_and, maskedOut, Bool.and_false]

end Sys2Proof.Machine

/-! Index register and memory instructions (43_index_memory.md): what each leaves in `I`, in memory and in the registers,
and the fault of a block that does not end below 4096. -/

namespace Sys2Proof.Machine

/-! ## What a completed instruction leaves unchanged -/

section Frames
variable {may may' : Part → Prop} {s t : State}

theorem Frame.mono (sub : ∀ p, may p → may' p) (frame : Frame may s t) : Frame may' s t :=
  fun p untouched => frame p fun touched => untouched (sub p touched)

theorem Frame.goto_after (frame : Frame may s t) (w : Word) :
    Frame (fun p => p = .pc ∨ p = .rs ∨ may p) s (t.goto w) := by
  intro p untouched
  simp only [not_or] at untouched
  obtain ⟨notPc, notRs, notMay⟩ := untouched
  have same := frame p notMay
  cases p with
  | pc => exact absurd rfl notPc
  | rs => exact absurd rfl notRs
  | _ => exact same

theorem Frame.setI_after (frame : Frame may s t) (w : Word) : Frame (fun p => p = .i ∨ may p) s { t with i := w } := by
  intro p untouched
  obtain ⟨notI, notMay⟩ := not_or.1 untouched
  have same := frame p notMay
  cases p with
  | i => exact absurd rfl notI
  | _ => exact same

theorem OnlyChanges.setI (s : State) (w : Word) : OnlyChanges [.i] s { s with i := w } :=
  (Frame.setI_after (OnlyChanges.refl [] s) w).mono fun _ => List.mem_cons.2

/-- A block store changes the bytes of its block (R70). -/
theorem Frame.storeIndexed (s : State) (bytes : List Byte) :
    Frame (fun p => ∃ j, j < bytes.length ∧ p = .byte (s.ea j)) s { s with mem := s.storeIndexed bytes } := by
  intro p untouched
  cases p with
  | byte a =>
    refine read_storeBytes_outside ?_
    by_contra inside
    simp only [State.ea] at inside untouched
    exact untouched ⟨a - s.i.toNat, by omega, congrArg Part.byte (by omega)⟩
  | _ => rfl

theorem OnlyChanges.storeIndexed (s : State) (bytes : List Byte) :
    OnlyChanges ((List.range bytes.length).map fun j => .byte (s.ea j)) s { s with mem := s.storeIndexed bytes } :=
  (Frame.storeIndexed s bytes).mono fun _ ⟨j, inside, eq⟩ => List.mem_map.2 ⟨j, List.mem_range.2 inside, eq.symm⟩

theorem get_writeRegs_beyond (v : Vector Byte 16) {bytes : List Byte} {x : Reg} (h : bytes.length ≤ x.val) :
    (writeRegs v 0 bytes).get x = v.get x := by
  rw [get_writeRegs, if_pos x.val.zero_le, Nat.sub_zero, List.getD_eq_default _ _ h]

/-- A block load changes the registers of its block (R199). -/
theorem Frame.writeRegs (s : State) (bytes : List Byte) :
    Frame (fun p => ∃ j : Reg, j.val < bytes.length ∧ p = .reg j) s { s with v := writeRegs s.v 0 bytes } := by
  intro p untouched
  cases p with
  | reg y =>
    exact get_writeRegs_beyond s.v (Nat.le_of_not_lt fun inside => untouched ⟨y, inside, rfl⟩)
  | _ => rfl

end Frames

/-! ## The range check (R64, R241) -/

section Checked
variable {i : Instr} {s effect : State} {len : Nat} {code : FaultCode}

theorem State.checked_of_le (h : s.i.toNat + len ≤ 4096) : s.checked (s.indexOutOfRange len) code effect = effect := by
  rw [State.indexOutOfRange_none (.inr h), State.checked]

/-- A block that does not end below 4096 takes the fault in place of the effect. -/
theorem TakesFault.of_checked (answer : exec i s = .next (s.checked (s.indexOutOfRange len) code effect))
    (nonempty : 0 < len) (beyond : 4096 < s.i.toNat + len) : TakesFault i s code (max s.i.toNat 4096) := by
  rw [State.indexOutOfRange_some nonempty beyond, State.checked] at answer
  exact ⟨_, answer, .of_raiseFault s _ _ (by omega)⟩

end Checked

/-! ## Blocks at `I` (R190, R196, R198, R199) -/

theorem exec_stBcd_of_le {s : State} {x : Reg} (h : s.i.toNat ≤ 4093) :
    exec (.stBcd x) s = .next (State.goto { s with mem := s.storeIndexed (decimalDigits (s.reg x)) } (s.pc + 2#16)) :=
  congrArg Host.Outcome.next (State.checked_of_le (by omega))

theorem exec_ldRegs_of_le {s : State} {x : Reg} (h : s.i.toNat + x.val ≤ 4095) :
    exec (.ldRegs x) s = .next { s.advance with
      v := writeRegs s.v 0 (s.loadIndexed (x.val + 1)), i := s.indexAfterBlock x } :=
  congrArg Host.Outcome.next (State.checked_of_le (by omega))

theorem State.read_storeIndexed (s : State) {bytes : List Byte} {j : Nat} (h : j < bytes.length) :
    (s.storeIndexed bytes).read (s.ea j) = bytes[j] :=
  read_storeBytes_inside h

/-- Each register of the block holds the byte at its own address (R199). -/
theorem State.get_writeRegs_loadIndexed (s : State) {x j : Reg} (h : j ≤ x) :
    (writeRegs s.v 0 (s.loadIndexed (x.val + 1))).get j = s.mem.read (s.ea j.val) := by
  have loaded : j.val < (s.loadIndexed (x.val + 1)).length := by
    rw [State.loadIndexed, length_loadBytes]; exact Nat.lt_succ_of_le h
  rw [get_writeRegs, if_pos j.val.zero_le, Nat.sub_zero, List.getD_eq_getElem _ _ loaded]
  exact getElem_loadBytes s.mem (s.ea 0) (x.val + 1) j.val loaded

theorem toNat_ofNat_of_lt {w n : Nat} (h : n < 2 ^ w) : (BitVec.ofNat w n).toNat = n :=
  (BitVec.toNat_ofNat n w).trans (Nat.mod_eq_of_lt h)

theorem State.toNat_indexAfterBlock {s : State} {x : Reg} (h : s.i.toNat + x.val ≤ 4095) :
    (s.indexAfterBlock x).toNat = s.i.toNat + x.val + 1 :=
  toNat_ofNat_of_lt (by omega)

/-- Settles O34: the digits are a block of three bytes, each of them below 256, and the check is of that block. -/
theorem decimalDigitsStored : Obligations.DecimalDigitsStored := by
  refine ⟨.of_fits (.x (fun _ => rfl) rfl), fun x s inRange => ?_, fun x s beyond =>
    .of_checked rfl (by decide) (by omega)⟩
  have byte := (s.reg x).isLt
  have stored (j : Fin 3) := s.read_storeIndexed (bytes := decimalDigits (s.reg x)) j.isLt
  refine .of_goto (exec_stBcd_of_le inRange) (.storeIndexed s (decimalDigits (s.reg x))) ⟨?_, ?_, ?_⟩
  · exact (congrArg BitVec.toNat (stored 0)).trans (toNat_ofNat_of_lt (by omega))
  · exact (congrArg BitVec.toNat (stored 1)).trans (toNat_ofNat_of_lt (by omega))
  · exact (congrArg BitVec.toNat (stored 2)).trans (toNat_ofNat_of_lt (by omega))

/-- Settles O35: the block is the first `x + 1` registers, and the check is of as many bytes. -/
theorem storeRegisterBlock : Obligations.StoreRegisterBlock := by
  refine ⟨.of_fits (.x (fun _ => rfl) rfl), fun x s inRange => ?_, fun x s beyond =>
    .of_checked rfl x.val.succ_pos (by omega)⟩
  have block : (s.v.toList.take (x.val + 1)).length = x.val + 1 := by
    rw [List.length_take, Vector.length_toList]; omega
  refine ⟨_, exec_stRegs_of_le inRange, rfl, rfl, fun j => s.read_storeIndexed_regs,
    State.toNat_indexAfterBlock inRange, (((Frame.storeIndexed s _).mono ?_).setI_after _).goto_after _⟩
  rintro _ ⟨j, hj, rfl⟩
  exact ⟨j, by omega, rfl⟩

/-- Settles O36: the block is the `x + 1` bytes at `I`, and the check is of as many. -/
theorem loadRegisterBlock : Obligations.LoadRegisterBlock := by
  refine ⟨.of_fits (.x (fun _ => rfl) rfl), fun x s inRange => ?_, fun x s beyond =>
    .of_checked rfl x.val.succ_pos (by omega)⟩
  refine ⟨_, exec_ldRegs_of_le inRange, rfl, rfl, fun j => s.get_writeRegs_loadIndexed,
    State.toNat_indexAfterBlock inRange, (((Frame.writeRegs s _).mono ?_).setI_after _).goto_after _⟩
  rintro _ ⟨j, hj, rfl⟩
  rw [State.loadIndexed, length_loadBytes] at hj
  exact ⟨j, Nat.le_of_lt_succ hj, rfl⟩

/-- Settles O37, from what the store leaves (O35) and what the load finds (O36). -/
theorem storeThenLoadRoundTrip : Obligations.StoreThenLoadRoundTrip := by
  intro x s t inRange stored u sameI sameMem
  obtain ⟨-, store, -⟩ := storeRegisterBlock
  obtain ⟨-, load, -⟩ := loadRegisterBlock
  obtain ⟨t', stored', -, -, held, iStore, -⟩ := store x s inRange
  obtain rfl : t' = t := Host.Outcome.next.inj (stored'.symm.trans stored)
  obtain ⟨w, loaded, -, -, found, iLoad, -⟩ := load x u (sameI ▸ inRange)
  refine ⟨w, loaded, BitVec.eq_of_toNat_eq (by rw [iLoad, iStore, sameI]), fun j hj => ?_⟩
  calc w.reg j = u.mem.read (u.ea j.val) := found j hj
    _ = t'.mem.read (s.ea j.val) := by rw [sameMem, State.ea, sameI, State.ea]
    _ = s.reg j := held j hj

/-! ## The index register alone (R191, R192, R194) -/

theorem Completes.of_setI {i : Instr} {s : State} {w : Word} {n : Nat}
    (answer : exec i s = .next (State.goto { s with i := w } (s.pc + 2#16))) (toNat_w : w.toNat = n) :
    Completes i s [.i] fun t => t.i.toNat = n :=
  .of_goto answer (.setI s w) toNat_w

/-- Settles O31: the 12-bit immediate is extended with zeros. -/
theorem loadIndex : Obligations.LoadIndex :=
  ⟨.of_fits (.nnn (fun _ => rfl) rfl), fun nnn _ => .of_setI rfl (toNat_target nnn)⟩

theorem toNat_zext16 (b : Byte) : (zext16 b).toNat = b.toNat :=
  BitVec.toNat_setWidth_of_le (by decide)

/-- Settles O32: the sum of words is the sum modulo 65536. -/
theorem addToIndex : Obligations.AddToIndex := by
  refine ⟨.of_fits (.x (fun _ => rfl) rfl), fun x s => .of_setI rfl ?_⟩
  rw [BitVec.toNat_add, toNat_zext16]

/-- Settles O33: five times a byte is a word. -/
theorem fontGlyphAddress : Obligations.FontGlyphAddress := by
  refine ⟨.of_fits (.x (fun _ => rfl) rfl), fun x s => .of_setI rfl (toNat_ofNat_of_lt ?_)⟩
  have byte := (s.reg x).isLt
  omega

end Sys2Proof.Machine

/-! Display instructions (44_display.md): the clear, and the sprite that inverts the pixels under its set bits. What drawing
does to each pixel and to the collision is said in Laws/Display.lean; here it is put on the screen. -/

namespace Sys2Proof.Machine

/-! ## What a change of the screen leaves unchanged (R38, R39) -/

section Frames
variable {may : Part → Prop} {s t : State}

theorem Frame.setFb (s : State) (fb : Framebuffer) :
    Frame (fun p => ∃ px py, p = .pixel px py) s { s with fb := fb } := by
  intro p untouched
  cases p with
  | pixel px py => exact absurd ⟨px, py, rfl⟩ untouched
  | _ => rfl

theorem Frame.setRd_after (frame : Frame may s t) (rd : Bool) :
    Frame (fun p => p = .rd ∨ may p) s { t with rd := rd } := by
  intro p untouched
  obtain ⟨notRd, notMay⟩ := not_or.1 untouched
  have same := frame p notMay
  cases p with
  | rd => exact absurd rfl notRd
  | _ => exact same

theorem Frame.setReg_after (frame : Frame may s t) (x : Reg) (b : Byte) :
    Frame (fun p => p = .reg x ∨ may p) s (t.setReg x b) := by
  intro p untouched
  obtain ⟨notWritten, notMay⟩ := not_or.1 untouched
  have same := frame p notMay
  cases p with
  | reg y => exact (State.reg_setReg_ne t b fun eq => notWritten (congrArg Part.reg eq.symm)).trans same
  | _ => exact same

end Frames

/-! ## Clearing (R210) -/

/-- The state that shows a blank screen and asks for a redraw. -/
def State.showBlank (s : State) : State := { s with fb := blankFramebuffer, rd := true }

theorem State.pixel_showBlank (s : State) (px : Fin 64) (py : Fin 32) : s.showBlank.pixel px py = false := by
  simp [State.pixel, State.showBlank, blankFramebuffer, Vector.get_eq_getElem]

theorem Frame.showBlank (s : State) : Frame (fun p => p = .rd ∨ ∃ px py, p = .pixel px py) s s.showBlank :=
  (Frame.setFb s blankFramebuffer).setRd_after true

theorem exec_cls (s : State) : exec .cls s = .next (s.showBlank.goto (s.pc + 2#16)) := rfl

/-- Settles O39: the clear is the blank screen shown, then the advance of `PC`. -/
theorem clearScreen : Obligations.ClearScreen :=
  ⟨.of_fits (.whole fun _ => rfl),
   fun s => ⟨_, exec_cls s, rfl, rfl, rfl, s.pixel_showBlank, (Frame.showBlank s).goto_after _⟩⟩

/-! ## Drawing (R212) -/

/-- The state that shows a canvas: its pixels, its collision as the flag, and a redraw asked for. -/
def State.showCanvas (s : State) (cv : Canvas) : State :=
  { (State.setReg { s with fb := cv.1 } 15 (collisionFlag cv.2)) with rd := true }

theorem State.reg15_showCanvas (s : State) (cv : Canvas) : (s.showCanvas cv).reg 15 = collisionFlag cv.2 :=
  State.reg_setReg_self _ 15 (collisionFlag cv.2)

theorem Frame.showCanvas (s : State) (cv : Canvas) :
    Frame (fun p => p = .rd ∨ p = .reg 15 ∨ ∃ px py, p = .pixel px py) s (s.showCanvas cv) :=
  ((Frame.setFb s cv.1).setReg_after 15 _).setRd_after true

/-- A readable sprite is drawn and shown; an empty one is readable wherever `I` points (D22). -/
theorem exec_drw_of_readable {s : State} {n : Fin 16} (x y : Reg) (readable : n.val = 0 ∨ s.i.toNat + n.val ≤ 4096) :
    exec (.drw x y n) s = .next ((s.showCanvas (s.drawSprite x y n.val)).goto (s.pc + 2#16)) := by
  rw [exec, execDrw, State.indexOutOfRange_none readable]
  rfl

/-- Settles O40: the canvas drawn is the one shown, and the check is of the rows the drawing reads. -/
theorem spriteDraw : Obligations.SpriteDraw := by
  refine ⟨.of_fits (.xyn (fun _ => rfl) rfl), fun x y n s readable => ?_, fun x y n s nonempty beyond =>
    .of_checked rfl nonempty beyond⟩
  have rows : n.val < 32 := by omega
  have inverted := s.pixel_drawSprite x y rows
  have collides := s.collision_drawSprite x y rows
  refine ⟨_, exec_drw_of_readable x y readable, rfl, rfl, rfl, fun px py sets => ?_, fun px py clear => ?_,
    fun hit => ?_, fun miss => ?_, (Frame.showCanvas s _).goto_after _⟩
  · exact (inverted px py true (iff_of_true rfl sets)).trans (Bool.xor_true _)
  · exact (inverted px py false (iff_of_false nofun clear)).trans (Bool.xor_false _)
  · exact (s.reg15_showCanvas _).trans (congrArg collisionFlag (collides.2 hit))
  · exact (s.reg15_showCanvas _).trans (congrArg collisionFlag (Bool.eq_false_iff.2 (mt collides.1 miss)))

/-- The place and the bits of a sprite depend on `I`, the coordinates and memory alone. -/
theorem spriteSets_congr {s t : State} {x y : Reg} (i : t.i = s.i) (col : t.reg x = s.reg x) (row : t.reg y = s.reg y)
    (mem : ∀ a, t.mem.read a = s.mem.read a) (n : Nat) (px : Fin 64) (py : Fin 32) :
    SpriteSets t x y n px py ↔ SpriteSets s x y n px py := by
  simp only [SpriteSets, State.ea, i, col, row, mem]

/-- Settles O41, from O40 twice: the first draw leaves the second one its sprite and its place, so both invert the same
pixels. -/
theorem drawTwiceRestoresScreen : Obligations.DrawTwiceRestoresScreen := by
  intro x y n s t xNotFlag yNotFlag readable drawn
  obtain ⟨-, draw, -⟩ := spriteDraw
  obtain ⟨t', drawn', -, -, -, inverted, kept, -, -, frame⟩ := draw x y n s readable
  obtain rfl : t' = t := Host.Outcome.next.inj (drawn'.symm.trans drawn)
  have sameI : t'.i = s.i := frame .i (by simp)
  have sameSprite := spriteSets_congr sameI (frame (.reg x) (by simp [xNotFlag])) (frame (.reg y) (by simp [yNotFlag]))
    (fun a => frame (.byte a) (by simp)) n.val
  obtain ⟨u, redrawn, -, -, -, inverted', kept', collides, -, -⟩ := draw x y n t' (sameI ▸ readable)
  refine ⟨u, redrawn, fun px py => ?_, fun ⟨px, py, off, on⟩ => ?_⟩
  · by_cases sets : SpriteSets s x y n.val px py
    · rw [inverted' px py ((sameSprite px py).2 sets), inverted px py sets, Bool.not_not]
    · rw [kept' px py (mt (sameSprite px py).1 sets), kept px py sets]
  · have sets : SpriteSets s x y n.val px py := by
      by_contra clear
      exact absurd (off.symm.trans ((kept px py clear).symm.trans on)) nofun
    exact collides ⟨px, py, (sameSprite px py).2 sets, on⟩

end Sys2Proof.Machine

/-! Keypad and timer instructions (45_keypad_timers.md): the skips on a key's level, the wait for a key, and the moves
between V[x] and the timers. -/

namespace Sys2Proof.Machine

/-! ## Skips on a key's level (R220 to R222) -/

section KeySkips
variable {i : Instr} {s : State} {x : Reg} {k : Fin 16} {level : Bool}

theorem State.skipIfKey_of_named (level : Bool) (named : k.val = (s.reg x).toNat) :
    s.skipIfKey x level = s.skipIf (s.key k == level) := by
  have index : (s.reg x).toNat < 16 := named ▸ k.isLt
  obtain rfl : k = ⟨(s.reg x).toNat, index⟩ := Fin.ext named
  exact State.skipIfKey_of_lt level index

theorem CompletesAt.of_skipIfKey_level (answer : exec i s = .next (s.skipIfKey x level))
    (named : k.val = (s.reg x).toNat) (atLevel : s.key k = level) :
    CompletesAt i s (s.pc + 4#16) [] fun _ => True := by
  rw [State.skipIfKey_of_named level named] at answer
  exact .of_skipIf_true answer (beq_iff_eq.2 atLevel)

theorem CompletesAt.of_skipIfKey_ne_level (answer : exec i s = .next (s.skipIfKey x level))
    (named : k.val = (s.reg x).toNat) (offLevel : s.key k ≠ level) :
    CompletesAt i s (s.pc + 2#16) [] fun _ => True := by
  rw [State.skipIfKey_of_named level named] at answer
  exact .of_skipIf_false answer (beq_eq_false_iff_ne.2 offLevel)

/-- No key has the index, so the instruction is abandoned (R220). -/
theorem TakesFault.of_skipIfKey (answer : exec i s = .next (s.skipIfKey x level)) (beyond : 15 < (s.reg x).toNat) :
    TakesFault i s .keyIndex (s.reg x).toNat := by
  rw [State.skipIfKey_of_ge level beyond] at answer
  have byte := (s.reg x).isLt
  exact ⟨_, answer, .of_raiseFault s _ _ (by omega)⟩

end KeySkips

/-- Settles O42: the two test the same key for the two levels, so on either level exactly one of them skips. -/
theorem skipOnKey : Obligations.SkipOnKey := by
  refine ⟨⟨.of_fits (.x (fun _ => rfl) rfl), .of_fits (.x (fun _ => rfl) rfl)⟩,
    fun x s k named => ⟨fun pressed => ?_, fun released => ?_⟩,
    fun x s beyond => ⟨.of_skipIfKey rfl beyond, .of_skipIfKey rfl beyond⟩⟩
  · exact ⟨.of_skipIfKey_level rfl named pressed, .of_skipIfKey_ne_level rfl named (by simp [pressed])⟩
  · exact ⟨.of_skipIfKey_ne_level rfl named (by simp [released]), .of_skipIfKey_level rfl named released⟩

/-! ## Waiting for a key (R225) -/

theorem OnlyChanges.setRs (s : State) (rs : RunState) : OnlyChanges [.rs] s { s with rs := rs } := by
  intro p untouched
  cases p with
  | rs => simp at untouched
  | _ => rfl

/-- Settles O43, by the two answers of the search for the lowest key; a key index is a byte. -/
theorem waitForKey : Obligations.WaitForKey := by
  refine ⟨.of_fits (.x (fun _ => rfl) rfl), fun x s k pressed below => ?_, fun x s noKey => ?_⟩
  · have answer := exec_waitKey_of_key x (State.lowestKey_eq_some.2 ⟨pressed, below⟩)
    refine (Completes.of_retire answer).imp_post fun t stored => ?_
    rw [stored, toNat_ofNat_of_lt (by omega)]
  · exact ⟨_, exec_waitKey_of_none x (State.lowestKey_eq_none.2 noKey), rfl, .setRs s .blocked⟩

/-! ## Timers (R227 to R229) -/

theorem OnlyChanges.setDt (s : State) (b : Byte) : OnlyChanges [.dt] s { s with dt := b } := by
  intro p untouched
  cases p with
  | dt => simp at untouched
  | _ => rfl

theorem OnlyChanges.setSt (s : State) (b : Byte) : OnlyChanges [.st] s { s with st := b } := by
  intro p untouched
  cases p with
  | st => simp at untouched
  | _ => rfl

/-- The tone is requested while `ST` is not 0 (R262). -/
theorem State.soundActive_iff (s : State) : s.ports.soundActive = true ↔ s.st ≠ 0#8 :=
  bne_iff_ne

/-- Settles O44: the read of DT retires it into V[x]; the writes set the timer and advance `PC`, and the output follows
`ST` at once. -/
theorem timerMoves : Obligations.TimerMoves :=
  ⟨⟨.of_fits (.x (fun _ => rfl) rfl), .of_fits (.x (fun _ => rfl) rfl), .of_fits (.x (fun _ => rfl) rfl)⟩,
   fun _ _ => .of_retire rfl,
   fun x s => .of_goto rfl (.setDt s (s.reg x)) rfl,
   fun x s => .of_goto rfl (.setSt s (s.reg x)) ⟨rfl, State.soundActive_iff _⟩⟩

end Sys2Proof.Machine

/-! Faults, host events and output ports (60_exceptions.md): which fault an instruction takes and what a fault leaves as it
was, what each host event other than `Reset` and `LoadProgram` changes, and the framebuffer output. -/

namespace Sys2Proof.Machine

/-! ## Which fault an instruction takes (R241, R243 to R247) -/

section FaultConditions
variable {i : Instr} {s t : State} {code : BitVec 3} {info : Nat}

/-- Where the condition of an instruction's fault holds, the instruction is that fault (R242). -/
theorem takesFault_of_faultOf (raised : faultOf i s = some (code, info)) :
    ∃ c : FaultCode, c.toBits = code ∧ TakesFault i s c info := by
  cases i with
  | drw x y n =>
    obtain ⟨⟨nonempty, beyond⟩, eq⟩ := Option.ite_none_right_eq_some.1 raised
    cases eq; exact ⟨.readRange, rfl, .of_checked rfl nonempty beyond⟩
  | ldRegs x =>
    obtain ⟨beyond, eq⟩ := Option.ite_none_right_eq_some.1 raised
    cases eq; exact ⟨.readRange, rfl, .of_checked rfl x.val.succ_pos (by omega)⟩
  | stBcd x | stRegs x =>
    obtain ⟨beyond, eq⟩ := Option.ite_none_right_eq_some.1 raised
    cases eq; exact ⟨.writeRange, rfl, .of_checked rfl (Nat.succ_pos _) (by omega)⟩
  | call nnn =>
    obtain ⟨full, eq⟩ := Option.ite_none_right_eq_some.1 raised
    obtain ⟨-, -, overflows⟩ := callPushesItsOwnAddress
    cases eq; exact ⟨.stackOverflow, rfl, overflows nnn s full⟩
  | ret =>
    obtain ⟨empty, eq⟩ := Option.ite_none_right_eq_some.1 raised
    obtain ⟨-, -, underflows⟩ := returnPopsAndAdvances
    cases eq; exact ⟨.stackUnderflow, rfl, underflows s empty⟩
  | skp x | sknp x =>
    obtain ⟨beyond, eq⟩ := Option.ite_none_right_eq_some.1 raised
    cases eq; exact ⟨.keyIndex, rfl, .of_skipIfKey rfl beyond⟩
  | _ => cases raised

/-- Where the condition does not hold, or there is none, the instruction runs or waits for a key. -/
theorem exec_rs_ne_faulted_of_faultOf_eq_none (clear : faultOf i s = none) (h : exec i s = .next t) :
    t.rs ≠ .faulted := by
  cases i with
  | drw x y n =>
    have readable := (Option.some_ne_none _).ite_eq_right_iff.1 clear
    rw [exec_drw_of_readable x y (by omega)] at h; cases h; nofun
  | ldRegs x | stBcd x | stRegs x =>
    have inRange := (Option.some_ne_none _).ite_eq_right_iff.1 clear
    cases h; rw [State.checked_of_le (by omega)]; nofun
  | call nnn =>
    have room : s.sp.val ≠ 16 := (Option.some_ne_none _).ite_eq_right_iff.1 clear
    rw [exec_call_of_lt nnn (Nat.lt_of_le_of_ne (Nat.le_of_lt_succ s.sp.isLt) room)] at h; cases h; nofun
  | ret =>
    have entries := (Option.some_ne_none _).ite_eq_right_iff.1 clear
    rw [exec_ret_of_pos (by omega)] at h; cases h; nofun
  | skp x | sknp x =>
    have index := (Option.some_ne_none _).ite_eq_right_iff.1 clear
    cases h; rw [State.skipIfKey_of_lt _ (by omega)]; nofun
  | waitKey x =>
    cases lowest : s.lowestKey with
    | none => rw [exec_waitKey_of_none x lowest] at h; cases h; nofun
    | some k => rw [exec_waitKey_of_key x lowest] at h; cases h; nofun
  | _ => cases h; nofun

/-- An instruction that runs leaves the fault status as it was (R43). -/
theorem exec_faultStatus_of_not_faulted (h : exec i s = .next t) (ran : t.rs ≠ .faulted) :
    t.fc = s.fc ∧ t.fi = s.fi ∧ t.fpc = s.fpc := by
  cases exec_outcome h with
  | faulted => exact absurd rfl ran
  | blocked => exact ⟨rfl, rfl, rfl⟩
  | retired _ done => exact ⟨done.fc, done.fi, done.fpc⟩

/-- What the fault outputs show of an instruction whose fault is raised (R241). -/
theorem exec_ports_of_faultOf (raised : faultOf i s = some (code, info)) (h : exec i s = .next t) :
    t.rs = .faulted ∧ t.ports.faultCode = code ∧ t.ports.faultInfo.toNat = info ∧ t.ports.faultPc = s.pc := by
  obtain ⟨c, bits, t', answer, fc, fi, fpc, rs, -⟩ := takesFault_of_faultOf raised
  obtain rfl : t' = t := Host.Outcome.next.inj (answer.symm.trans h)
  exact ⟨rs, (congrArg FaultCode.toBits fc).trans bits, fi, fpc⟩

end FaultConditions

/-- Settles O45: each instruction either meets the condition of its fault and is that fault, or runs; `Cycle` faults on a
`PC` it cannot fetch from (O7). -/
theorem faultCodesAndConditions : Obligations.FaultCodesAndConditions := by
  refine ⟨fun i s t h => ?_, fun s he beyond => ?_, rfl, rfl⟩
  · cases raised : faultOf i s with
    | none =>
      have ran := exec_rs_ne_faulted_of_faultOf_eq_none raised h
      exact ⟨iff_of_false ran nofun, fun _ => exec_faultStatus_of_not_faulted h ran, nofun⟩
    | some fault =>
      obtain ⟨faulted, shown⟩ := exec_ports_of_faultOf raised h
      refine ⟨iff_of_true faulted rfl, nofun, ?_⟩
      rintro _ _ ⟨⟩
      exact shown
  · obtain ⟨t, answer, fc, fi, fpc, -⟩ := fetchIsBigEndianAndBounded.2 s he beyond
    exact ⟨t, answer, congrArg FaultCode.toBits fc, fi, fpc⟩

/-! ## What a fault leaves unchanged (R242) -/

theorem OnlyChanges.raiseFault (s : State) (c : FaultCode) (n : Nat) :
    OnlyChanges [.fc, .fi, .fpc, .rs] s (s.raiseFault c n) := by
  intro p untouched
  cases p with
  | fc | fi | fpc | rs => simp at untouched
  | _ => rfl

/-- A `Cycle` that faults does nothing else (R242). -/
theorem cycle_eq_raiseFault {s t : State} (he : s.Executing) (h : cycle s = .next t) (faulted : t.rs = .faulted) :
    ∃ c n, c ≠ FaultCode.none ∧ t = s.raiseFault c n := by
  rcases cycle_cases he h with ⟨-, rfl⟩ | ⟨w, i, -, -, -, executed⟩ | ⟨w, c, -, -, -, executed⟩
  · exact ⟨.fetchRange, _, nofun, rfl⟩
  · cases exec_outcome executed with
    | faulted c n code => exact ⟨c, n, code, rfl⟩
    | blocked => exact nomatch faulted
    | retired _ done => exact nomatch done.rs.symm.trans faulted
  · exact nomatch (Retired.of_execUnknown executed).rs.symm.trans faulted

/-- Settles O46: the state answered is the one before with a fault raised in it. -/
theorem faultsArePrecise : Obligations.FaultsArePrecise := by
  intro s t he h faulted
  obtain ⟨c, n, code, rfl⟩ := cycle_eq_raiseFault he h faulted
  exact ⟨code, rfl, rfl, .raiseFault s c n⟩

/-! ## What the host events change (R260, R263, R264, R284) -/

theorem OnlyChanges.tickTimers (s : State) : OnlyChanges [.dt, .st] s s.tickTimers := by
  intro p untouched
  cases p with
  | dt | st => simp at untouched
  | _ => rfl

theorem OnlyChanges.keyEvent (s : State) (k : Fin 16) (pressed : Bool) :
    OnlyChanges [.key k] s (s.keyEvent k pressed) := by
  intro p untouched
  cases p with
  | key l =>
    have ne : k ≠ l := fun eq => untouched (by simp [eq])
    exact (s.key_keyEvent k l pressed).trans (if_neg ne)
  | _ => rfl

theorem OnlyChanges.redrawAck (s : State) : OnlyChanges [.rd] s s.redrawAck := by
  intro p untouched
  cases p with
  | rd => simp at untouched
  | _ => rfl

theorem OnlyChanges.loadError (s : State) : OnlyChanges [.outbox] s s.loadError := by
  intro p untouched
  cases p with
  | outbox => simp at untouched
  | _ => rfl

/-- A load is refused outside IDLE (R285). -/
theorem State.loadProgram_of_not_idle {s : State} (img : List Byte) (busy : s.rs ≠ .idle) :
    s.loadProgram img = s.loadError :=
  if_pos busy

/-- Settles O47, event by event: the load is refused, the `Cycle` does nothing (R129), and no other event but `Reset`
touches what R242 keeps. -/
theorem faultedIsLeftOnlyByReset : Obligations.FaultedIsLeftOnlyByReset := by
  intro e s t faulted h
  cases e with
  | reset => cases h; exact ⟨fun _ => rfl, absurd rfl⟩
  | loadProgram img =>
    rw [applyEvent, State.loadProgram_of_not_idle img (faulted ▸ nofun)] at h
    cases h
    exact ⟨nofun, fun _ => Frame.mono (by simp) (OnlyChanges.loadError s)⟩
  | cycle =>
    obtain rfl : s = t :=
      Host.Outcome.next.inj ((cycleInIdleOrFaultedChangesNothing s (.inr faulted)).symm.trans h)
    exact ⟨nofun, fun _ => Frame.mono (by simp) (OnlyChanges.refl [] s)⟩
  | tickTimers => cases h; exact ⟨nofun, fun _ => Frame.mono (by simp) (OnlyChanges.tickTimers s)⟩
  | keyEvent k pressed => cases h; exact ⟨nofun, fun _ => Frame.mono (by simp) (OnlyChanges.keyEvent s k pressed)⟩
  | redrawAck => cases h; exact ⟨nofun, fun _ => Frame.mono (by simp) (OnlyChanges.redrawAck s)⟩

/-- Settles O53, from what each key reads after the event: the one named the level set, every other what it was. -/
theorem keyEventSetsOneKey : Obligations.KeyEventSetsOneKey :=
  fun s k pressed => ⟨_, rfl, (s.key_keyEvent k k pressed).trans (if_pos rfl), .keyEvent s k pressed⟩

/-! ## Every step has a next state (R242, R126, R284) -/

theorem cycle_next (s : State) : ∃ t, cycle s = .next t := by
  by_cases he : s.Executing
  · cases fetched : s.fetch with
    | none => exact ⟨_, cycle_of_unfetched he fetched⟩
    | some w =>
      cases decoded : decode w with
      | ok i => rw [cycle_of_decoded he fetched decoded]; exact exec_next i s
      | error c => exact ⟨_, cycle_of_unknown he fetched decoded⟩
  · exact ⟨s, cycle_of_not_executing he⟩

theorem applyEvent_next (e : HostEvent) (s : State) : ∃ t, applyEvent e s = .next t := by
  cases e with
  | cycle => exact cycle_next s
  | _ => exact ⟨_, rfl⟩

/-- Settles O48: every event answers a next state, the `Cycle` because every instruction does. -/
theorem stepAlwaysAnswersNextState : Obligations.StepAlwaysAnswersNextState := by
  intro s
  cases waiting : s.inbox with
  | nil => rw [step_of_inbox_nil waiting]; exact cycle_next s
  | cons e rest => rw [step_of_inbox_cons waiting]; exact applyEvent_next e _

/-! ## The timers (R260) -/

/-- The subtraction of naturals is the one floored at zero. -/
theorem toNat_tickDown (b : Byte) : (tickDown b).toNat = b.toNat - 1 := by
  unfold tickDown
  split_ifs with zero
  · rw [zero]; rfl
  · have pos : 1#8 ≤ b := Nat.pos_of_ne_zero fun eq => zero (BitVec.eq_of_toNat_eq eq)
    exact BitVec.toNat_sub_of_le pos

theorem Part.same_trans (p : Part) {s t u : State} (first : p.same s t) (second : p.same t u) : p.same s u := by
  cases p <;> exact Eq.trans second first

theorem Frame.trans {may : Part → Prop} {s t u : State} (first : Frame may s t) (second : Frame may t u) :
    Frame may s u :=
  fun p untouched => p.same_trans (first p untouched) (second p untouched)

/-- Settles O52, the ticks in a row by induction on their number. -/
theorem timersTickDownToZero : Obligations.TimersTickDownToZero := by
  refine ⟨fun s => ⟨_, rfl, toNat_tickDown s.dt, toNat_tickDown s.st, .tickTimers s⟩, fun n s => ?_⟩
  induction n with
  | zero => exact ⟨rfl, rfl, .refl _ s⟩
  | succ n ih =>
    obtain ⟨dt, st, only⟩ := ih
    rw [Function.iterate_succ_apply', State.tickTimers_dt, State.tickTimers_st, toNat_tickDown, toNat_tickDown, dt, st]
    exact ⟨Nat.sub_sub .., Nat.sub_sub .., only.trans (OnlyChanges.tickTimers _)⟩

/-! ## The framebuffer output (R264) -/

/-- Row `y` stands in the 64 bits from bit `y * 64` on. -/
theorem testBit_flattenRows (rows : List (BitVec 64)) {x y : Nat} (hx : x < 64) (hy : y < rows.length) :
    (flattenRows rows).testBit (y * 64 + x) = rows[y].getLsbD x := by
  induction rows generalizing y with
  | nil => cases hy
  | cons row rows ih =>
    rw [flattenRows, Nat.add_comm, Nat.testBit_two_pow_mul_add _ row.isLt]
    cases y with
    | zero => rw [if_pos (by omega), Nat.zero_mul, Nat.zero_add]; rfl
    | succ y =>
      rw [if_neg (by omega), show (y + 1) * 64 + x - 64 = y * 64 + x by omega]
      exact ih (Nat.lt_of_succ_lt_succ hy)

theorem State.getLsbD_ports_fb (s : State) (x : Fin 64) (y : Fin 32) :
    s.ports.fb.getLsbD (y.val * 64 + x.val) = s.pixel x y := by
  have inPort : y.val * 64 + x.val < 2048 := by omega
  have row : y.val < s.fb.toList.length := y.isLt.trans_eq s.fb.length_toList.symm
  rw [State.ports, BitVec.getLsbD_ofNat, decide_eq_true inPort, Bool.true_and, testBit_flattenRows _ x.isLt row,
    Vector.getElem_toList]
  rfl

/-- Settles O54: the acknowledgement writes `RD` alone, and the output is the rows one after the other. -/
theorem redrawAckAndFramebufferPort : Obligations.RedrawAckAndFramebufferPort :=
  ⟨fun s => ⟨_, rfl, rfl, .redrawAck s⟩, fun s x y => ⟨s.getLsbD_ports_fb x y, rfl⟩⟩

end Sys2Proof.Machine

/-! Reset and program load (70_reset_and_hazards.md): the values `Reset` gives, what an accepted and a refused `LoadProgram`
leave, and the launch state the two lead to. -/

namespace Sys2Proof.Machine

/-! ## Reset (R280) -/

theorem length_font : Config.font.length = 80 := rfl

/-- Above the font every byte is 0 after `Reset` (R65). -/
theorem Memory.resetByte_eq_zero {a : Nat} (aboveFont : 80 ≤ a) : Memory.resetByte a = 0#8 :=
  List.getD_eq_default _ _ (length_font.trans_le aboveFont)

/-- The framebuffer of the reset state is the one a clear leaves. -/
theorem State.pixel_reset (x : Fin 64) (y : Fin 32) : State.reset.pixel x y = false :=
  State.reset.pixel_showBlank x y

theorem State.key_reset (k : Fin 16) : State.reset.key k = false := by
  simp [State.key, State.reset, Vector.get_eq_getElem]

theorem State.stack_reset (j : Fin Config.stackDepth) : State.reset.stack.get j = 0#16 := by
  simp [State.reset, Vector.get_eq_getElem]

/-- Settles O49, part by part: the fields by evaluation, what a register, a stack entry, a pixel and a byte read as by their
lemmas. -/
theorem resetValues : Obligations.ResetValues :=
  ⟨fun s => ⟨s.resetEvent, rfl, fun _ _ => rfl, fun _ => Memory.resetByte_eq_zero, State.reg_reset, rfl, rfl, rfl, rfl, rfl,
    State.stack_reset, State.pixel_reset, rfl, rfl, rfl, rfl, rfl, fun _ => rfl⟩, State.key_reset, rfl⟩

/-- Settles O55, by the base case of the induction that O56 is the step of. -/
theorem resetMeetsInvariant : Obligations.ResetMeetsInvariant := State.Inv.reset

/-! ## Program load (R284, R285) -/

/-- The state that runs an image: its bytes from `PROG_BASE` up, and RUNNING. -/
def State.withImage (s : State) (img : List Byte) : State :=
  { s with mem := storeBytes .fault s.mem Config.progBase img, rs := .running }

theorem imageFits_eq_false {img : List Byte} : imageFits img = false ↔ 3584 < img.length := by
  rw [imageFits, decide_eq_false_iff_not, Nat.not_le]

theorem State.loadProgram_of_accepted {s : State} {img : List Byte} (idle : s.rs = .idle) (fits : img.length ≤ 3584) :
    s.loadProgram img = s.withImage img := by
  rw [State.loadProgram, if_neg (not_not.2 idle), if_neg (imageFits_eq_false.not.2 fits.not_gt)]
  rfl

theorem State.loadProgram_of_too_long {img : List Byte} (s : State) (tooLong : 3584 < img.length) :
    s.loadProgram img = s.loadError := by
  rw [State.loadProgram, if_pos (imageFits_eq_false.2 tooLong), ite_self]

theorem State.read_withImage_inside (s : State) {img : List Byte} {j : Nat} (inside : j < img.length) :
    (s.withImage img).mem.read (512 + j) = img[j] :=
  read_storeBytes_inside inside

theorem State.read_withImage_outside (s : State) {img : List Byte} {a : Nat}
    (outside : a < 512 ∨ 512 + img.length ≤ a) : (s.withImage img).mem.read a = s.mem.read a :=
  read_storeBytes_outside outside

theorem Frame.withImage (s : State) (img : List Byte) :
    Frame (fun p => p = .rs ∨ ∃ j, j < img.length ∧ p = .byte (512 + j)) s (s.withImage img) := by
  intro p untouched
  obtain ⟨notRs, notImage⟩ := not_or.1 untouched
  cases p with
  | rs => exact absurd rfl notRs
  | byte a =>
    refine s.read_withImage_outside ?_
    by_contra inside
    exact notImage ⟨a - 512, by omega, congrArg Part.byte (by omega)⟩
  | _ => rfl

/-- Settles O50: the accepted load is the image put in place and RUNNING; the load refused for the run state and the one
rejected for its length are the same pulse. -/
theorem loadProgramAllOrNothing : Obligations.LoadProgramAllOrNothing := by
  intro s img
  constructor
  · intro idle fits
    exact ⟨s.withImage img, congrArg _ (State.loadProgram_of_accepted idle fits), rfl,
      fun _ => s.read_withImage_inside, .withImage s img⟩
  · intro notAccepted
    have refused : s.loadProgram img = s.loadError :=
      notAccepted.elim (State.loadProgram_of_not_idle img) s.loadProgram_of_too_long
    exact ⟨s.loadError, congrArg _ refused, rfl, .loadError s⟩

/-! ## The launch state (R289) -/

/-- Outside the image memory reads as it does after `Reset`. -/
theorem State.read_withImage_resetEvent (s : State) {img : List Byte} {a : Nat}
    (outside : a < 512 ∨ 512 + img.length ≤ a) : (s.resetEvent.withImage img).mem.read a = Memory.resetByte a :=
  s.resetEvent.read_withImage_outside outside

/-- Settles O51: the load after `Reset` is accepted, and changes the reset values only in the image and `RS`. -/
theorem launchState : Obligations.LaunchState := by
  intro s img fits
  refine ⟨s.resetEvent.withImage img, congrArg _ (State.loadProgram_of_accepted rfl fits), rfl, rfl, State.reg_reset, rfl,
    rfl, rfl, rfl, State.pixel_reset, rfl, rfl, fun a font => ?font, fun a aboveFont below => ?between,
    fun _ => s.resetEvent.read_withImage_inside, fun a above _ => ?above, fun _ => rfl⟩
  case font => exact s.read_withImage_resetEvent (.inl (by omega))
  case between => exact (s.read_withImage_resetEvent (.inl below)).trans (Memory.resetByte_eq_zero aboveFont)
  case above => exact (s.read_withImage_resetEvent (.inr above)).trans (Memory.resetByte_eq_zero (by omega))

end Sys2Proof.Machine
